-- ==== Sys2Proof/Word.lean ====
section
/-! DEFINITION. The words of the block: bytes, CPU addresses, transaction words. `ROM_BANK_SIZE` and `RAM_BANK_SIZE` (R10) are
written 16384 and 8192 where they are used. -/

namespace Sys2Proof

/-- The 8-bit data of every access (R53). -/
abbrev Byte := BitVec 8

/-- A CPU byte address (R50). -/
abbrev Addr := BitVec 16

/-- A transaction word `TW` (R80). -/
abbrev TW := BitVec 32

/-- `RAM_CAP`, the length of the RAM array on every family (R11). -/
abbrev ramCap : Nat := 65536

end Sys2Proof
end

