-- ==== Sys2Proof/Syntax.lean ====
section
/-! DEFINITION. The families of cartridges (R2, R7), the tags of the header's type byte (R193), and the transactions
as one inductive: one constructor per row of spec/opcode_table.json, its operands those of the row's rule. -/

namespace Sys2Proof

/-- The family strap `FAM` (R2, R7). -/
inductive Family where
  | none
  | mbc1
  | mbc2
  | mbc5
  | unsupported
deriving DecidableEq, Repr

/-- The eight 8 KiB slices of the CPU space, numbered by `addr[15:13]` (R83). -/
inductive Slice where
  | s0
  | s1
  | s2
  | s3
  | s4
  | s5
  | s6
  | s7
deriving DecidableEq, Repr

/-- What READ and DEBUG_WRITE see of the CPU space (R54, R83): the three windows of the cartridge and the two
ranges that are not the cartridge's. -/
inductive Window where
  | rom0
  | romX
  | out8
  | xram
  | outC
deriving DecidableEq, Repr

/-- The tags a header's type byte selects (R193): "None, MBC1[+RAM][+Battery], MBC2[+Battery],
MBC5[+RAM][+Battery][+Rumble]", and the distinct "Unsupported" tag. -/
inductive CartType where
  | none
  | mbc1 (ram battery : Bool)
  | mbc2 (battery : Bool)
  | mbc5 (ram battery rumble : Bool)
  | unsupported
deriving DecidableEq, Repr

/-- A transaction, already decoded for the block's family: the constructors stand in the order of
spec/opcode_table.json. READ carries its address, WRITE and DEBUG_WRITE an address and a data byte, the other
operations nothing (R80, R81). -/
inductive Instr where
  /-- `RD.ROM0.NONE` (R110). -/
  | rdRom0None (addr : Addr)
  /-- `RD.ROMX.NONE` (R111). -/
  | rdRomXNone (addr : Addr)
  /-- `RD.XRAM.NONE` (R112). -/
  | rdXramNone (addr : Addr)
  /-- `RD.OUT8.NONE` (R113). -/
  | rdOut8None (addr : Addr)
  /-- `RD.OUTC.NONE` (R113). -/
  | rdOutCNone (addr : Addr)
  /-- `RD.ROM0.MBC1` (R110). -/
  | rdRom0Mbc1 (addr : Addr)
  /-- `RD.ROMX.MBC1` (R111). -/
  | rdRomXMbc1 (addr : Addr)
  /-- `RD.XRAM.MBC1` (R112). -/
  | rdXramMbc1 (addr : Addr)
  /-- `RD.OUT8.MBC1` (R113). -/
  | rdOut8Mbc1 (addr : Addr)
  /-- `RD.OUTC.MBC1` (R113). -/
  | rdOutCMbc1 (addr : Addr)
  /-- `RD.ROM0.MBC2` (R110). -/
  | rdRom0Mbc2 (addr : Addr)
  /-- `RD.ROMX.MBC2` (R111). -/
  | rdRomXMbc2 (addr : Addr)
  /-- `RD.XRAM.MBC2` (R112). -/
  | rdXramMbc2 (addr : Addr)
  /-- `RD.OUT8.MBC2` (R113). -/
  | rdOut8Mbc2 (addr : Addr)
  /-- `RD.OUTC.MBC2` (R113). -/
  | rdOutCMbc2 (addr : Addr)
  /-- `RD.ROM0.MBC5` (R110). -/
  | rdRom0Mbc5 (addr : Addr)
  /-- `RD.ROMX.MBC5` (R111). -/
  | rdRomXMbc5 (addr : Addr)
  /-- `RD.XRAM.MBC5` (R112). -/
  | rdXramMbc5 (addr : Addr)
  /-- `RD.OUT8.MBC5` (R113). -/
  | rdOut8Mbc5 (addr : Addr)
  /-- `RD.OUTC.MBC5` (R113). -/
  | rdOutCMbc5 (addr : Addr)
  /-- `RD.UNSUP` (R114). -/
  | rdUnsup (addr : Addr)
  /-- `WR.NONE.NOP` (R120). -/
  | wrNoneNop (addr : Addr) (data : Byte)
  /-- `WR.UNSUP.NOP` (R121). -/
  | wrUnsupNop (addr : Addr) (data : Byte)
  /-- `WR.MBC1.RAMEN` (R131). -/
  | wrMbc1Ramen (addr : Addr) (data : Byte)
  /-- `WR.MBC1.ROMB_LO` (R132). -/
  | wrMbc1RombLo (addr : Addr) (data : Byte)
  /-- `WR.MBC1.BANK2` (R133). -/
  | wrMbc1Bank2 (addr : Addr) (data : Byte)
  /-- `WR.MBC1.MODESEL` (R134). -/
  | wrMbc1Modesel (addr : Addr) (data : Byte)
  /-- `WR.MBC1.RAMWR` (R135). -/
  | wrMbc1Ramwr (addr : Addr) (data : Byte)
  /-- `WR.MBC1.NOP8` (R136). -/
  | wrMbc1Nop8 (addr : Addr) (data : Byte)
  /-- `WR.MBC1.NOPC` (R136). -/
  | wrMbc1NopC (addr : Addr) (data : Byte)
  /-- `WR.MBC2.ROMB` (R151). -/
  | wrMbc2Romb (addr : Addr) (data : Byte)
  /-- `WR.MBC2.NOP_A8` (R152). -/
  | wrMbc2NopA8 (addr : Addr) (data : Byte)
  /-- `WR.MBC2.RAMWR` (R153). -/
  | wrMbc2Ramwr (addr : Addr) (data : Byte)
  /-- `WR.MBC2.NOP0` (R154). -/
  | wrMbc2Nop0 (addr : Addr) (data : Byte)
  /-- `WR.MBC2.NOP4` (R154). -/
  | wrMbc2Nop4 (addr : Addr) (data : Byte)
  /-- `WR.MBC2.NOP8` (R154). -/
  | wrMbc2Nop8 (addr : Addr) (data : Byte)
  /-- `WR.MBC2.NOPC` (R154). -/
  | wrMbc2NopC (addr : Addr) (data : Byte)
  /-- `WR.MBC5.ROMB_LO8` (R161). -/
  | wrMbc5RombLo8 (addr : Addr) (data : Byte)
  /-- `WR.MBC5.ROMB_HI` (R162). -/
  | wrMbc5RombHi (addr : Addr) (data : Byte)
  /-- `WR.MBC5.RAMB` (R163). -/
  | wrMbc5Ramb (addr : Addr) (data : Byte)
  /-- `WR.MBC5.RAMWR` (R164). -/
  | wrMbc5Ramwr (addr : Addr) (data : Byte)
  /-- `WR.MBC5.NOP0` (R165). -/
  | wrMbc5Nop0 (addr : Addr) (data : Byte)
  /-- `WR.MBC5.NOP6` (R165). -/
  | wrMbc5Nop6 (addr : Addr) (data : Byte)
  /-- `WR.MBC5.NOP8` (R165). -/
  | wrMbc5Nop8 (addr : Addr) (data : Byte)
  /-- `WR.MBC5.NOPC` (R165). -/
  | wrMbc5NopC (addr : Addr) (data : Byte)
  /-- `RESET` (R231). -/
  | reset
  /-- `SAVE_MAPPING` (R171). -/
  | saveMapping
  /-- `RESTORE_MAPPING` (R172). -/
  | restoreMapping
  /-- `DBGW.ROM0` (R173). -/
  | dbgwRom0 (addr : Addr) (data : Byte)
  /-- `DBGW.ROMX` (R174). -/
  | dbgwRomX (addr : Addr) (data : Byte)
  /-- `DBGW.XRAM` (R175). -/
  | dbgwXram (addr : Addr) (data : Byte)
  /-- `DBGW.OUT8` (R176). -/
  | dbgwOut8 (addr : Addr) (data : Byte)
  /-- `DBGW.OUTC` (R176). -/
  | dbgwOutC (addr : Addr) (data : Byte)
  /-- `CURRENT_BANK` (R177). -/
  | currentBank
  /-- `MAP_INFO` (R178). -/
  | mapInfo
deriving DecidableEq, Repr

end Sys2Proof
end

