-- ==== Sys2Proof/Config.lean ====
section
/-! DEFINITION. What the spec leaves open: the free values (no proof can see what they are) and the named parameters
that LOAD takes as arguments. -/

namespace Sys2Proof

/-- `Undef8()` (R113, R114, R111): the byte of the n-th draw. DESIGN CHOICE (log entry 4), safe: nothing constrains
it, and two draws need not agree. -/
opaque Config.undef8 : Nat → Byte

/-- The string MAP_INFO answers at the n-th draw (R178, D28). DESIGN CHOICE (log entry 5), safe: nothing
constrains it. -/
opaque Config.mapInfoText : Nat → String

/-- Byte `offset` of the persisted prefix of RAM after a LOAD whose store was short (R197, D19), for the load the
host numbers `attempt`. DESIGN CHOICE (log entry 8), safe: nothing constrains it. -/
opaque Config.shortStoreByte : (attempt offset : Nat) → Byte

/-- The persisted store as the host finds it (R196, R197, R214). -/
inductive Machine.Store where
  | missing
  /-- A save file with its bytes. -/
  | present (bytes : List Byte)
  /-- A save file that cannot be written, with its bytes: one of R214's failures on load. -/
  | unwritable (bytes : List Byte)
deriving DecidableEq, Repr, Inhabited

/-- What the persisted store is after a save that failed, for the DETACH the host numbers `attempt`: the spec says only
that the save "is simply lost" (R198, R214). DESIGN CHOICE (log entry 13), safe: nothing constrains it. -/
opaque Config.storeAfterLostSave : (attempt : Nat) → Machine.Store

/-- The OPEN parameters of load time (R190, R191, R193, R196; D26, D27): arguments of `load`, as the spec asks.
DESIGN CHOICE (log entry 7), safe. -/
structure LoadParams where
  /-- `OFF_TYPE`; `OFF_ROMSIZE` is the next offset (R190). -/
  offType : Nat
  /-- `OFF_RAMSIZE` (R190). -/
  offRamSize : Nat
  /-- `OFF_CHECKSUM`, the high byte of the field; the low byte is next (R190, R195). -/
  offChecksum : Nat
  /-- `OVERSIZE_CODES[0]`, for 72 banks (R191). -/
  oversize72 : Byte
  /-- `OVERSIZE_CODES[1]`, for 80 banks (R191). -/
  oversize80 : Byte
  /-- `OVERSIZE_CODES[2]`, for 96 banks (R191). -/
  oversize96 : Byte
  /-- `TYPE_MAP` apart from byte 0: the bytes assigned to a tag; every other byte is `UNSUPPORTED` (R193). -/
  typeMap : List (Byte × CartType)
  /-- The "fixed alternate extension" of the persisted store, without its dot (R196). -/
  saveExt : List Char
deriving DecidableEq, Repr

/-- What the spec says of the parameters: the header lies within bank 0 (R190), and the three oversize codes are
distinct and none of 0 to 7 (R191, D26). -/
abbrev LoadParams.Legal (p : LoadParams) : Prop :=
  p.offType + 1 < 16384 ∧ p.offRamSize < 16384 ∧ p.offChecksum + 1 < 16384 ∧
  8 ≤ p.oversize72.toNat ∧ 8 ≤ p.oversize80.toNat ∧ 8 ≤ p.oversize96.toNat ∧
  p.oversize72 ≠ p.oversize80 ∧ p.oversize72 ≠ p.oversize96 ∧ p.oversize80 ≠ p.oversize96

end Sys2Proof
end

