-- ==== Sys2Proof/Machine/Flags.lean ====
section
/-! DEFINITION. The one-bit flags of the register file as the control windows compute them. -/

namespace Sys2Proof.Machine

/-- `RAM_EN` after a write of `data` to MBC1's RAM-enable window: 1 exactly when the low nibble is 0xA (R131). -/
def ramEnableOf (data : Byte) : BitVec 1 := if data &&& 0x0F#8 = 0x0A#8 then 1#1 else 0#1

/-- `MODE` after a write of `data` to MBC1's mode window: `data[0]` (R134). -/
def modeOf (data : Byte) : BitVec 1 := data.extractLsb' 0 1

/-- The `RAM_EN` gate of RAM stores on MBC1 and MBC2 (R59, R135, R153). -/
def ramWriteEnabled (ramEn : BitVec 1) : Bool := ramEn == 1#1

/-- Large-RAM mode (R24). -/
def largeRamMode (mode : BitVec 1) : Bool := mode == 1#1

/-- What SAVE_MAPPING leaves in `SAVED`: the first capture since the last restore stays (R171). -/
def savedAfterSave (saved : Option (BitVec 9)) (romb : BitVec 9) : Option (BitVec 9) :=
  match saved with
  | some b => some b
  | none => some romb

end Sys2Proof.Machine
end

