-- ==== Sys2Proof/Machine/Operands.lean ====
section
/-! DEFINITION. The operand forms: the family codes, the address windows, the data fields each control window takes,
and the translation from a CPU address to an array offset. -/

namespace Sys2Proof.Machine

/-- The family codes of `TW[27:24]` (R82). -/
def familyCode : Family → BitVec 4
  | .none => 0x0#4
  | .mbc1 => 0x1#4
  | .mbc2 => 0x2#4
  | .mbc5 => 0x5#4
  | .unsupported => 0xF#4

/-- The family a code names, if it names one (R82). -/
def familyOfCode (c : BitVec 4) : Option Family :=
  match c.toNat with
  | 0x0 => some .none
  | 0x1 => some .mbc1
  | 0x2 => some .mbc2
  | 0x5 => some .mbc5
  | 0xF => some .unsupported
  | _ => Option.none

/-- `WIN = addr[15:13]`, the slice an address falls in (R83). -/
def sliceOf (a : Addr) : Slice :=
  match (a.extractLsb' 13 3).toNat with
  | 0 => .s0
  | 1 => .s1
  | 2 => .s2
  | 3 => .s3
  | 4 => .s4
  | 5 => .s5
  | 6 => .s6
  | _ => .s7

/-- What READ and DEBUG_WRITE see at an address (R54, the table of R83). -/
def windowOf (a : Addr) : Window :=
  match sliceOf a with
  | .s0 => .rom0
  | .s1 => .rom0
  | .s2 => .romX
  | .s3 => .romX
  | .s4 => .out8
  | .s5 => .xram
  | .s6 => .outC
  | .s7 => .outC

/-- `addr[8]`, the qualifier of MBC2's control window (R87). -/
def addrBit8 (a : Addr) : Bool := a.getLsbD 8

/-- `addr[12]`, which splits slice 1 on MBC5 (R88). -/
def addrBit12 (a : Addr) : Bool := a.getLsbD 12

/-- `RomOff0(addr)` (R55). -/
def romOffset0 (a : Addr) : Nat := (a.extractLsb' 0 14).toNat

/-- `RomOffX(addr) = ROM_OFF + (addr − 0x4000)` for the bank register `romb` (R56, R26). -/
def romOffsetX (romb : BitVec 9) (a : Addr) : Nat := romb.toNat * 16384 + (a.toNat - 0x4000)

/-- `RamOff(addr) = RAM_OFF + (addr − 0xA000)` for the bank register `ramb` (R57, R27). The address bits taken
are `addr[12:0]`, which is `addr − 0xA000` in the window and keeps the offset inside the array for every address. -/
def ramOffset (ramb : BitVec 3) (a : Addr) : Nat := ramb.toNat * 8192 + (a.extractLsb' 0 13).toNat

/-- "0 forced to 1", after the mask (R92, R132, R151). -/
def forceZeroToOne (field : Byte) : Byte := if field = 0#8 then 1#8 else field

/-- `(ROMB & 0x60) | lo` with `lo` the low five data bits, 0 forced to 1 (R132). -/
def mbc1LowBank (romb : BitVec 9) (data : Byte) : BitVec 9 :=
  (romb &&& 0x60#9) ||| (forceZeroToOne (data &&& 0x1F#8)).setWidth 9

/-- `data & 0x03`, MBC1's secondary two bits, as a RAM bank (R133). -/
def mbc1RamBank (data : Byte) : BitVec 3 := (data &&& 0x03#8).setWidth 3

/-- `(ROMB & 0x1F) | (two << 5)` (R133). -/
def mbc1HighBank (romb : BitVec 9) (data : Byte) : BitVec 9 :=
  (romb &&& 0x1F#9) ||| ((data &&& 0x03#8).setWidth 9 <<< 5)

/-- The low five data bits, 0 forced to 1, as the whole bank number (R151). -/
def mbc2Bank (data : Byte) : BitVec 9 := (forceZeroToOne (data &&& 0x1F#8)).setWidth 9

/-- `(ROMB & 0x100) | data` (R161). -/
def mbc5LowBank (romb : BitVec 9) (data : Byte) : BitVec 9 := (romb &&& 0x100#9) ||| data.setWidth 9

/-- `(ROMB & 0x0FF) | (data[0] << 8)` (R162). -/
def mbc5HighBank (romb : BitVec 9) (data : Byte) : BitVec 9 :=
  (romb &&& 0x0FF#9) ||| ((data &&& 0x01#8).setWidth 9 <<< 8)

/-- `data & 0x07` (R163). -/
def mbc5RamBank (data : Byte) : BitVec 3 := (data &&& 0x07#8).setWidth 3

end Sys2Proof.Machine
end

