-- ==== Sys2Proof/Machine/State.lean ====
section
/-! DEFINITION. The state of the block as plain data (R20, R232), the reasons a step can stop, and the state after
power-on. -/

namespace Sys2Proof.Machine

/-- A byte array held sparsely: the listed (offset, byte) pairs, offsets strictly rising, none equal to what an unlisted
offset reads as (Memory.wf in Machine/Ops.lean). -/
abbrev Memory := List Host.Cell

/-- A transaction as an agent issues it (R5): the operation code (R81) and its operands. The family is not supplied by
the agent (R80). An operation without operands carries zeros. -/
structure Request where
  op : BitVec 4
  addr : Addr
  data : Byte
deriving DecidableEq, Repr

/-- What a transaction answers on its port (the output column of R5's table). -/
inductive Output where
  /-- No output. -/
  | none
  /-- `rdata[7:0]` of READ. -/
  | byte (b : Byte)
  /-- `bank[8:0]` of CURRENT_BANK. -/
  | bank (b : BitVec 9)
  /-- The string of MAP_INFO. -/
  | info (text : String)
deriving DecidableEq, Repr

/-- The block. -/
structure State where
  /-- `FAM`, the family strap, constant after LOAD (R7). -/
  fam : Family
  /-- `BANK_COUNT`, constant after LOAD (R8). -/
  bankCount : Nat
  /-- `BATTERY`, constant after LOAD (R13). -/
  battery : Bool
  /-- `RAM_BANK_COUNT`, 1 or 4, constant after LOAD (R13, R199). -/
  ramBankCount : Nat
  /-- `ROMB`, the ROM bank register (R21). -/
  romb : BitVec 9
  /-- `RAMB`, the RAM bank register (R22). -/
  ramb : BitVec 3
  /-- `RAM_EN`, the RAM-enable latch (R23). -/
  ramEn : BitVec 1
  /-- `MODE`, the banking-mode flag (R24). -/
  mode : BitVec 1
  /-- `SAVED`, the one-slot saved-bank register (R25). -/
  saved : Option (BitVec 9)
  /-- `ROM`, the ROM array of `16384 × BANK_COUNT` bytes (R28). -/
  rom : Memory
  /-- `RAM`, the RAM array of 65536 bytes (R29). -/
  ram : Memory
  /-- The MODEL's own field: the transactions issued and not yet accepted, oldest first. DESIGN CHOICE (log entry 1),
  safe: the total order of R65. -/
  pending : List Request
  /-- The MODEL's own field: the answer of the last transaction. DESIGN CHOICE (log entry 6), safe. -/
  output : Output
  /-- The MODEL's own field: how many free values have been drawn. DESIGN CHOICE (log entry 4), safe: no statement rests
  on its value. -/
  draws : Nat
deriving DecidableEq, Repr

/-- Why a transaction faults: never. "No exceptions escape the cartridge boundary for steady-state bus access"
(R210), so nobody raises one and there is no constructor. Safe: R210 says so of every transaction. -/
inductive Fault where
deriving DecidableEq, Repr

/-- Why a step has no meaning. -/
inductive Refusal where
  /-- Raised by `exec` for a row that has no meaning yet. Safe: the model stops. -/
  | notModelled (mnemonic : String)
  /-- Raised by `step` for an `OP` of 0x8 to 0xF, which is not a transaction (R81, R94). Safe: the spec has a decoder
  refuse it. -/
  | reservedOperation (op : BitVec 4)
  /-- Raised by `step` for a word whose `FAM` is no family code (R82, R94). Safe: the spec has a decoder refuse it; a
  step never forms such a word, since the strap supplies `FAM`. -/
  | notAFamily (fam : BitVec 4)
  /-- Raised by DEBUG_WRITE in 0x4000–0x7FFF when the offset is not inside the image: "refuse" (R174, R58). Safe: the
  spec gives it no meaning. -/
  | romOffsetBeyondImage
deriving DecidableEq, Repr

/-- The power-on state of a block with the given configuration and array contents (R230 step 8, R232). -/
def State.powerOn (fam : Family) (bankCount : Nat) (battery : Bool) (ramBankCount : Nat) (romInit ramInit : Memory) :
    State :=
  { fam := fam, bankCount := bankCount, battery := battery, ramBankCount := ramBankCount,
    romb := 1#9, ramb := 0#3, ramEn := 0#1, mode := 0#1, saved := none,
    rom := romInit, ram := ramInit, pending := [], output := .none, draws := 0 }

/-- The machine after power-on. The registers are R232's. DESIGN CHOICE (log entries 2 and 3), unsafe: the configuration
is that of the all-zero image (`NONE`, 2 banks, no battery, RAM_BANK_COUNT 1), and every byte of both arrays is 0. -/
def State.reset : State := State.powerOn .none 2 false 1 [] []

end Sys2Proof.Machine
end

