-- ==== Sys2Proof/Machine/Ops.lean ====
section
/-! DEFINITION. The named operations over the arrays and the register file, and the shared bodies of the transactions.
The block has no trap: no operation takes an exception and none returns from one (R210, R218, R219). -/

namespace Sys2Proof.Machine

/-- What an unlisted byte of either array reads as: RAM is zero-initialised (R29, R197). For ROM it is a DESIGN CHOICE
(log entry 3). -/
def unlistedByte : Byte := 0x00#8

/-- The byte at an offset of an array. -/
def Memory.read (m : Memory) (off : Nat) : Byte :=
  match m with
  | [] => unlistedByte
  | (k, v) :: t => if k = off then v else Memory.read t off

/-- List a byte in its place by offset. -/
def Memory.place (m : Memory) (off : Nat) (v : Byte) : Memory :=
  match m with
  | [] => [(off, v)]
  | c :: t => if off < c.1 then (off, v) :: c :: t else c :: Memory.place t off v

/-- Write one byte of an array, keeping the canonical form. -/
def Memory.write (m : Memory) (off : Nat) (v : Byte) : Memory :=
  if v = unlistedByte then m.filter (fun c => c.1 != off)
  else Memory.place (m.filter (fun c => c.1 != off)) off v

/-- The canonical form: offsets strictly rising, and no entry equal to what an unlisted offset reads as. -/
abbrev Memory.wf (m : Memory) : Prop :=
  m.Pairwise (fun c d => c.1 < d.1) ∧ ∀ c ∈ m, c.2 ≠ unlistedByte

/-- Every listed offset is inside an array of `len` bytes. -/
abbrev Memory.within (m : Memory) (len : Nat) : Prop := ∀ c ∈ m, c.1 < len

/-- The array that holds `bytes` from offset `off` up, and unlisted bytes elsewhere. -/
def Memory.ofBytes (off : Nat) : List Byte → Memory
  | [] => []
  | b :: t => if b = unlistedByte then Memory.ofBytes (off + 1) t else (off, b) :: Memory.ofBytes (off + 1) t

/-- The first `n` bytes of an array, in order. -/
def Memory.firstBytes (m : Memory) (n : Nat) : List Byte := (List.range n).map (Memory.read m)

/-- `ROM_LEN` (R9). -/
def State.romLen (s : State) : Nat := 16384 * s.bankCount

/-- `ROM_OFF`, derived from `ROMB` at all times (R26). -/
def State.romOff (s : State) : Nat := s.romb.toNat * 16384

/-- `RAM_OFF`, derived from `RAMB` at all times (R27). -/
def State.ramOff (s : State) : Nat := s.ramb.toNat * 8192

/-- `MemRead(ROM, off, 1)` (R15). -/
def State.romRead (s : State) (off : Nat) : Byte := Memory.read s.rom off

/-- `MemRead(RAM, off, 1)` (R15). -/
def State.ramRead (s : State) (off : Nat) : Byte := Memory.read s.ram off

/-- `MemWrite(ROM, off, 1, v)` (R15). -/
def State.romWrite (s : State) (off : Nat) (v : Byte) : State := { s with rom := Memory.write s.rom off v }

/-- `MemWrite(RAM, off, 1, v)` (R15). -/
def State.ramWrite (s : State) (off : Nat) (v : Byte) : State := { s with ram := Memory.write s.ram off v }

/-- `MapRom(b)`: `ROMB <- b`, and `ROM_OFF` moves with it (R15, R26). -/
def State.mapRom (s : State) (b : BitVec 9) : State := { s with romb := b }

/-- `MapRam(b)`: `RAMB <- b`, and `RAM_OFF` moves with it (R15, R27). -/
def State.mapRam (s : State) (b : BitVec 3) : State := { s with ramb := b }

/-- `RAM_EN <- v`. -/
def State.setRamEn (s : State) (v : BitVec 1) : State := { s with ramEn := v }

/-- `MODE <- v`. -/
def State.setMode (s : State) (v : BitVec 1) : State := { s with mode := v }

/-- `SAVED <- v`. -/
def State.setSaved (s : State) (v : Option (BitVec 9)) : State := { s with saved := v }

/-- The transaction's answer on its port (R5). -/
def State.answer (s : State) (o : Output) : State := { s with output := o }

/-- Answer `Undef8()`: a free byte, fresh at each draw (R113, log entry 4). -/
def State.answerUndef8 (s : State) : State :=
  { s with output := .byte (Config.undef8 s.draws), draws := s.draws + 1 }

/-- Answer an unspecified string, fresh at each draw (R178, log entry 5). -/
def State.answerText (s : State) : State :=
  { s with output := .info (Config.mapInfoText s.draws), draws := s.draws + 1 }

/-- What a transaction's meaning answers. -/
abbrev Result := Host.Outcome State Fault Refusal

/-- `nop`: no state changes and no output (R15). -/
def nop (s : State) : Result := .next (s.answer .none)

/-- READ in the fixed ROM window (R110). -/
def readRom0 (a : Addr) (s : State) : Result := .next (s.answer (.byte (s.romRead (romOffset0 a))))

/-- READ in the switched ROM window: the byte of the mapped bank, or `Undef8()` beyond the image (R111, R58). -/
def readRomX (a : Addr) (s : State) : Result :=
  if romOffsetX s.romb a < s.romLen then .next (s.answer (.byte (s.romRead (romOffsetX s.romb a))))
  else .next s.answerUndef8

/-- READ in the RAM window, not gated by `RAM_EN` (R112). -/
def readXram (a : Addr) (s : State) : Result := .next (s.answer (.byte (s.ramRead (ramOffset s.ramb a))))

/-- READ that answers `Undef8()` and changes no state (R113, R114). -/
def readUndef (s : State) : Result := .next s.answerUndef8

/-- A store into the RAM window (R164, R175). -/
def storeXram (a : Addr) (d : Byte) (s : State) : Result :=
  .next ((s.ramWrite (ramOffset s.ramb a) d).answer .none)

/-- A store into the RAM window under the `RAM_EN` gate: dropped silently when the latch is 0 (R135, R153). -/
def storeXramGated (a : Addr) (d : Byte) (s : State) : Result :=
  if ramWriteEnabled s.ramEn then storeXram a d s else nop s

/-- A control write that maps a ROM bank. -/
def switchRom (b : BitVec 9) (s : State) : Result := .next ((s.mapRom b).answer .none)

/-- A control write that maps a RAM bank. -/
def switchRam (b : BitVec 3) (s : State) : Result := .next ((s.mapRam b).answer .none)

end Sys2Proof.Machine
end

