-- ==== Sys2Proof/Machine/Debug.lean ====
section
/-! DEFINITION. The debug port and the override FSM (spec/45_debug_port.md). -/

namespace Sys2Proof.Machine

/-- `SAVE_MAPPING` (R171): capture `ROMB` unless an override is pending (R170). -/
def execSaveMapping (s : State) : Result :=
  .next ((s.setSaved (savedAfterSave s.saved s.romb)).answer .none)

/-- `RESTORE_MAPPING` (R172): map the saved bank as it is and end the override (R170). -/
def execRestoreMapping (s : State) : Result :=
  match s.saved with
  | some b => .next (((s.mapRom b).setSaved none).answer .none)
  | none => nop s

/-- `DBGW.ROM0` (R173): one ROM byte; the register file is not changed. -/
def execDbgwRom0 (a : Addr) (d : Byte) (s : State) : Result :=
  .next ((s.romWrite (romOffset0 a) d).answer .none)

/-- `DBGW.ROMX` (R174): one ROM byte of the mapped bank; refused beyond the image. -/
def execDbgwRomX (a : Addr) (d : Byte) (s : State) : Result :=
  if romOffsetX s.romb a < s.romLen then .next ((s.romWrite (romOffsetX s.romb a) d).answer .none)
  else .refused .romOffsetBeyondImage

/-- `DBGW.XRAM` (R175): one RAM byte, not gated by `RAM_EN`, on every family. -/
def execDbgwXram (a : Addr) (d : Byte) (s : State) : Result :=
  storeXram a d s

/-- `DBGW.OUT8` (R176). -/
def execDbgwOut8 (_a : Addr) (_d : Byte) (s : State) : Result :=
  nop s

/-- `DBGW.OUTC` (R176). -/
def execDbgwOutC (_a : Addr) (_d : Byte) (s : State) : Result :=
  nop s

/-- `CURRENT_BANK` (R177): the bank mapped now. -/
def execCurrentBank (s : State) : Result :=
  .next (s.answer (.bank s.romb))

/-- `MAP_INFO` (R178): an unspecified string; no state changes. -/
def execMapInfo (s : State) : Result :=
  .next s.answerText

end Sys2Proof.Machine
end

