-- ==== Sys2Proof/Machine/HostPort.lean ====
section
/-! DEFINITION. The RESET transaction (spec/70_reset_and_hazards.md). LOAD and DETACH stand in Machine/Load.lean. -/

namespace Sys2Proof.Machine

/-- `RESET` (R231): `MapRom(1)` and nothing else. -/
def execReset (s : State) : Result :=
  switchRom 1#9 s

end Sys2Proof.Machine
end

