-- ==== Sys2Proof/Machine/Read.lean ====
section
/-! DEFINITION. The READ transaction (spec/40_read.md). -/

namespace Sys2Proof.Machine

/-- `RD.ROM0.NONE` (R110). -/
def execRdRom0None (a : Addr) (s : State) : Result :=
  readRom0 a s

/-- `RD.ROMX.NONE` (R111). -/
def execRdRomXNone (a : Addr) (s : State) : Result :=
  readRomX a s

/-- `RD.XRAM.NONE` (R112). -/
def execRdXramNone (a : Addr) (s : State) : Result :=
  readXram a s

/-- `RD.OUT8.NONE` (R113). -/
def execRdOut8None (_a : Addr) (s : State) : Result :=
  readUndef s

/-- `RD.OUTC.NONE` (R113). -/
def execRdOutCNone (_a : Addr) (s : State) : Result :=
  readUndef s

/-- `RD.ROM0.MBC1` (R110). -/
def execRdRom0Mbc1 (a : Addr) (s : State) : Result :=
  readRom0 a s

/-- `RD.ROMX.MBC1` (R111). -/
def execRdRomXMbc1 (a : Addr) (s : State) : Result :=
  readRomX a s

/-- `RD.XRAM.MBC1` (R112). -/
def execRdXramMbc1 (a : Addr) (s : State) : Result :=
  readXram a s

/-- `RD.OUT8.MBC1` (R113). -/
def execRdOut8Mbc1 (_a : Addr) (s : State) : Result :=
  readUndef s

/-- `RD.OUTC.MBC1` (R113). -/
def execRdOutCMbc1 (_a : Addr) (s : State) : Result :=
  readUndef s

/-- `RD.ROM0.MBC2` (R110). -/
def execRdRom0Mbc2 (a : Addr) (s : State) : Result :=
  readRom0 a s

/-- `RD.ROMX.MBC2` (R111). -/
def execRdRomXMbc2 (a : Addr) (s : State) : Result :=
  readRomX a s

/-- `RD.XRAM.MBC2` (R112). -/
def execRdXramMbc2 (a : Addr) (s : State) : Result :=
  readXram a s

/-- `RD.OUT8.MBC2` (R113). -/
def execRdOut8Mbc2 (_a : Addr) (s : State) : Result :=
  readUndef s

/-- `RD.OUTC.MBC2` (R113). -/
def execRdOutCMbc2 (_a : Addr) (s : State) : Result :=
  readUndef s

/-- `RD.ROM0.MBC5` (R110). -/
def execRdRom0Mbc5 (a : Addr) (s : State) : Result :=
  readRom0 a s

/-- `RD.ROMX.MBC5` (R111). -/
def execRdRomXMbc5 (a : Addr) (s : State) : Result :=
  readRomX a s

/-- `RD.XRAM.MBC5` (R112). -/
def execRdXramMbc5 (a : Addr) (s : State) : Result :=
  readXram a s

/-- `RD.OUT8.MBC5` (R113). -/
def execRdOut8Mbc5 (_a : Addr) (s : State) : Result :=
  readUndef s

/-- `RD.OUTC.MBC5` (R113). -/
def execRdOutCMbc5 (_a : Addr) (s : State) : Result :=
  readUndef s

/-- `RD.UNSUP` (R114): any byte, at every address. -/
def execRdUnsup (_a : Addr) (s : State) : Result :=
  readUndef s

end Sys2Proof.Machine
end

