-- ==== Sys2Proof/Machine/WriteMbc1.lean ====
section
/-! DEFINITION. WRITE on `MBC1` (spec/42_write_mbc1.md). -/

namespace Sys2Proof.Machine

/-- `WR.MBC1.RAMEN` (R131): the RAM-enable latch. -/
def execWrMbc1Ramen (_a : Addr) (d : Byte) (s : State) : Result :=
  .next ((s.setRamEn (ramEnableOf d)).answer .none)

/-- `WR.MBC1.ROMB_LO` (R132): the low five bits of the ROM bank; bits 6 and 5 are kept in both modes. -/
def execWrMbc1RombLo (_a : Addr) (d : Byte) (s : State) : Result :=
  switchRom (mbc1LowBank s.romb d) s

/-- `WR.MBC1.BANK2` (R133): the secondary two bits, into `RAMB` in large-RAM mode and into `ROMB[6:5]` otherwise. -/
def execWrMbc1Bank2 (_a : Addr) (d : Byte) (s : State) : Result :=
  if largeRamMode s.mode then switchRam (mbc1RamBank d) s else switchRom (mbc1HighBank s.romb d) s

/-- `WR.MBC1.MODESEL` (R134): the banking mode, and nothing else. -/
def execWrMbc1Modesel (_a : Addr) (d : Byte) (s : State) : Result :=
  .next ((s.setMode (modeOf d)).answer .none)

/-- `WR.MBC1.RAMWR` (R135): a store into the RAM window, gated by `RAM_EN`. -/
def execWrMbc1Ramwr (a : Addr) (d : Byte) (s : State) : Result :=
  storeXramGated a d s

/-- `WR.MBC1.NOP8` (R136). -/
def execWrMbc1Nop8 (_a : Addr) (_d : Byte) (s : State) : Result :=
  nop s

/-- `WR.MBC1.NOPC` (R136). -/
def execWrMbc1NopC (_a : Addr) (_d : Byte) (s : State) : Result :=
  nop s

end Sys2Proof.Machine
end

