-- ==== Sys2Proof/Machine/WriteMbc2.lean ====
section
/-! DEFINITION. WRITE on `MBC2` (spec/43_write_mbc2.md). -/

namespace Sys2Proof.Machine

/-- `WR.MBC2.ROMB` (R151): the whole bank number is replaced. -/
def execWrMbc2Romb (_a : Addr) (d : Byte) (s : State) : Result :=
  switchRom (mbc2Bank d) s

/-- `WR.MBC2.NOP_A8` (R152): address bit 8 clear. -/
def execWrMbc2NopA8 (_a : Addr) (_d : Byte) (s : State) : Result :=
  nop s

/-- `WR.MBC2.RAMWR` (R153): a store into the RAM window, gated by `RAM_EN`. -/
def execWrMbc2Ramwr (a : Addr) (d : Byte) (s : State) : Result :=
  storeXramGated a d s

/-- `WR.MBC2.NOP0` (R154). -/
def execWrMbc2Nop0 (_a : Addr) (_d : Byte) (s : State) : Result :=
  nop s

/-- `WR.MBC2.NOP4` (R154). -/
def execWrMbc2Nop4 (_a : Addr) (_d : Byte) (s : State) : Result :=
  nop s

/-- `WR.MBC2.NOP8` (R154). -/
def execWrMbc2Nop8 (_a : Addr) (_d : Byte) (s : State) : Result :=
  nop s

/-- `WR.MBC2.NOPC` (R154). -/
def execWrMbc2NopC (_a : Addr) (_d : Byte) (s : State) : Result :=
  nop s

end Sys2Proof.Machine
end

