-- ==== Sys2Proof/Machine/WriteMbc5.lean ====
section
/-! DEFINITION. WRITE on `MBC5` (spec/44_write_mbc5.md). -/

namespace Sys2Proof.Machine

/-- `WR.MBC5.ROMB_LO8` (R161): the low eight bits of the ROM bank; 0 is not remapped. -/
def execWrMbc5RombLo8 (_a : Addr) (d : Byte) (s : State) : Result :=
  switchRom (mbc5LowBank s.romb d) s

/-- `WR.MBC5.ROMB_HI` (R162): bit 8 of the ROM bank. -/
def execWrMbc5RombHi (_a : Addr) (d : Byte) (s : State) : Result :=
  switchRom (mbc5HighBank s.romb d) s

/-- `WR.MBC5.RAMB` (R163): the RAM bank. -/
def execWrMbc5Ramb (_a : Addr) (d : Byte) (s : State) : Result :=
  switchRam (mbc5RamBank d) s

/-- `WR.MBC5.RAMWR` (R164): a store into the RAM window, not gated by `RAM_EN`. -/
def execWrMbc5Ramwr (a : Addr) (d : Byte) (s : State) : Result :=
  storeXram a d s

/-- `WR.MBC5.NOP0` (R165). -/
def execWrMbc5Nop0 (_a : Addr) (_d : Byte) (s : State) : Result :=
  nop s

/-- `WR.MBC5.NOP6` (R165). -/
def execWrMbc5Nop6 (_a : Addr) (_d : Byte) (s : State) : Result :=
  nop s

/-- `WR.MBC5.NOP8` (R165). -/
def execWrMbc5Nop8 (_a : Addr) (_d : Byte) (s : State) : Result :=
  nop s

/-- `WR.MBC5.NOPC` (R165). -/
def execWrMbc5NopC (_a : Addr) (_d : Byte) (s : State) : Result :=
  nop s

end Sys2Proof.Machine
end

