-- ==== Sys2Proof/Machine/WriteNone.lean ====
section
/-! DEFINITION. WRITE on `NONE` and `UNSUPPORTED` (spec/41_write_none.md). -/

namespace Sys2Proof.Machine

/-- `WR.NONE.NOP` (R120): "all writes are no-ops on the control path", RAM writes "similarly ignored". -/
def execWrNoneNop (_a : Addr) (_d : Byte) (s : State) : Result :=
  nop s

/-- `WR.UNSUP.NOP` (R121): no-op at every address. -/
def execWrUnsupNop (_a : Addr) (_d : Byte) (s : State) : Result :=
  nop s

end Sys2Proof.Machine
end

