-- ==== Sys2Proof/Machine/Dispatch.lean ====
section
/-! DEFINITION. The dispatch: one arm per row of spec/opcode_table.json, each a call of that row's meaning. -/

namespace Sys2Proof.Machine

def exec (i : Instr) (s : State) : Host.Outcome State Fault Refusal :=
  match i with
  | .rdRom0None a => Sys2Proof.Machine.execRdRom0None a s
  | .rdRomXNone a => Sys2Proof.Machine.execRdRomXNone a s
  | .rdXramNone a => Sys2Proof.Machine.execRdXramNone a s
  | .rdOut8None a => Sys2Proof.Machine.execRdOut8None a s
  | .rdOutCNone a => Sys2Proof.Machine.execRdOutCNone a s
  | .rdRom0Mbc1 a => Sys2Proof.Machine.execRdRom0Mbc1 a s
  | .rdRomXMbc1 a => Sys2Proof.Machine.execRdRomXMbc1 a s
  | .rdXramMbc1 a => Sys2Proof.Machine.execRdXramMbc1 a s
  | .rdOut8Mbc1 a => Sys2Proof.Machine.execRdOut8Mbc1 a s
  | .rdOutCMbc1 a => Sys2Proof.Machine.execRdOutCMbc1 a s
  | .rdRom0Mbc2 a => Sys2Proof.Machine.execRdRom0Mbc2 a s
  | .rdRomXMbc2 a => Sys2Proof.Machine.execRdRomXMbc2 a s
  | .rdXramMbc2 a => Sys2Proof.Machine.execRdXramMbc2 a s
  | .rdOut8Mbc2 a => Sys2Proof.Machine.execRdOut8Mbc2 a s
  | .rdOutCMbc2 a => Sys2Proof.Machine.execRdOutCMbc2 a s
  | .rdRom0Mbc5 a => Sys2Proof.Machine.execRdRom0Mbc5 a s
  | .rdRomXMbc5 a => Sys2Proof.Machine.execRdRomXMbc5 a s
  | .rdXramMbc5 a => Sys2Proof.Machine.execRdXramMbc5 a s
  | .rdOut8Mbc5 a => Sys2Proof.Machine.execRdOut8Mbc5 a s
  | .rdOutCMbc5 a => Sys2Proof.Machine.execRdOutCMbc5 a s
  | .rdUnsup a => Sys2Proof.Machine.execRdUnsup a s
  | .wrNoneNop a d => Sys2Proof.Machine.execWrNoneNop a d s
  | .wrUnsupNop a d => Sys2Proof.Machine.execWrUnsupNop a d s
  | .wrMbc1Ramen a d => Sys2Proof.Machine.execWrMbc1Ramen a d s
  | .wrMbc1RombLo a d => Sys2Proof.Machine.execWrMbc1RombLo a d s
  | .wrMbc1Bank2 a d => Sys2Proof.Machine.execWrMbc1Bank2 a d s
  | .wrMbc1Modesel a d => Sys2Proof.Machine.execWrMbc1Modesel a d s
  | .wrMbc1Ramwr a d => Sys2Proof.Machine.execWrMbc1Ramwr a d s
  | .wrMbc1Nop8 a d => Sys2Proof.Machine.execWrMbc1Nop8 a d s
  | .wrMbc1NopC a d => Sys2Proof.Machine.execWrMbc1NopC a d s
  | .wrMbc2Romb a d => Sys2Proof.Machine.execWrMbc2Romb a d s
  | .wrMbc2NopA8 a d => Sys2Proof.Machine.execWrMbc2NopA8 a d s
  | .wrMbc2Ramwr a d => Sys2Proof.Machine.execWrMbc2Ramwr a d s
  | .wrMbc2Nop0 a d => Sys2Proof.Machine.execWrMbc2Nop0 a d s
  | .wrMbc2Nop4 a d => Sys2Proof.Machine.execWrMbc2Nop4 a d s
  | .wrMbc2Nop8 a d => Sys2Proof.Machine.execWrMbc2Nop8 a d s
  | .wrMbc2NopC a d => Sys2Proof.Machine.execWrMbc2NopC a d s
  | .wrMbc5RombLo8 a d => Sys2Proof.Machine.execWrMbc5RombLo8 a d s
  | .wrMbc5RombHi a d => Sys2Proof.Machine.execWrMbc5RombHi a d s
  | .wrMbc5Ramb a d => Sys2Proof.Machine.execWrMbc5Ramb a d s
  | .wrMbc5Ramwr a d => Sys2Proof.Machine.execWrMbc5Ramwr a d s
  | .wrMbc5Nop0 a d => Sys2Proof.Machine.execWrMbc5Nop0 a d s
  | .wrMbc5Nop6 a d => Sys2Proof.Machine.execWrMbc5Nop6 a d s
  | .wrMbc5Nop8 a d => Sys2Proof.Machine.execWrMbc5Nop8 a d s
  | .wrMbc5NopC a d => Sys2Proof.Machine.execWrMbc5NopC a d s
  | .reset => Sys2Proof.Machine.execReset s
  | .saveMapping => Sys2Proof.Machine.execSaveMapping s
  | .restoreMapping => Sys2Proof.Machine.execRestoreMapping s
  | .dbgwRom0 a d => Sys2Proof.Machine.execDbgwRom0 a d s
  | .dbgwRomX a d => Sys2Proof.Machine.execDbgwRomX a d s
  | .dbgwXram a d => Sys2Proof.Machine.execDbgwXram a d s
  | .dbgwOut8 a d => Sys2Proof.Machine.execDbgwOut8 a d s
  | .dbgwOutC a d => Sys2Proof.Machine.execDbgwOutC a d s
  | .currentBank => Sys2Proof.Machine.execCurrentBank s
  | .mapInfo => Sys2Proof.Machine.execMapInfo s

end Sys2Proof.Machine
end

