-- ==== Sys2Proof/WellFormed.lean ====
section
/-! DEFINITION. Which transactions are well formed: the address lies in the window its row names (R84 to R89). Every
data byte is legal in every window (R94). -/

namespace Sys2Proof

open Sys2Proof.Machine

/-- The address of a transaction lies in the window of its row (the Operands line of the row's rule). -/
def Instr.wf : Instr → Bool
  | .rdRom0None a => windowOf a == .rom0
  | .rdRomXNone a => windowOf a == .romX
  | .rdXramNone a => windowOf a == .xram
  | .rdOut8None a => windowOf a == .out8
  | .rdOutCNone a => windowOf a == .outC
  | .rdRom0Mbc1 a => windowOf a == .rom0
  | .rdRomXMbc1 a => windowOf a == .romX
  | .rdXramMbc1 a => windowOf a == .xram
  | .rdOut8Mbc1 a => windowOf a == .out8
  | .rdOutCMbc1 a => windowOf a == .outC
  | .rdRom0Mbc2 a => windowOf a == .rom0
  | .rdRomXMbc2 a => windowOf a == .romX
  | .rdXramMbc2 a => windowOf a == .xram
  | .rdOut8Mbc2 a => windowOf a == .out8
  | .rdOutCMbc2 a => windowOf a == .outC
  | .rdRom0Mbc5 a => windowOf a == .rom0
  | .rdRomXMbc5 a => windowOf a == .romX
  | .rdXramMbc5 a => windowOf a == .xram
  | .rdOut8Mbc5 a => windowOf a == .out8
  | .rdOutCMbc5 a => windowOf a == .outC
  | .rdUnsup _ => true
  | .wrNoneNop _ _ => true
  | .wrUnsupNop _ _ => true
  | .wrMbc1Ramen a _ => sliceOf a == .s0
  | .wrMbc1RombLo a _ => sliceOf a == .s1
  | .wrMbc1Bank2 a _ => sliceOf a == .s2
  | .wrMbc1Modesel a _ => sliceOf a == .s3
  | .wrMbc1Ramwr a _ => windowOf a == .xram
  | .wrMbc1Nop8 a _ => windowOf a == .out8
  | .wrMbc1NopC a _ => windowOf a == .outC
  | .wrMbc2Romb a _ => sliceOf a == .s1 && addrBit8 a
  | .wrMbc2NopA8 a _ => sliceOf a == .s1 && !addrBit8 a
  | .wrMbc2Ramwr a _ => windowOf a == .xram
  | .wrMbc2Nop0 a _ => sliceOf a == .s0
  | .wrMbc2Nop4 a _ => windowOf a == .romX
  | .wrMbc2Nop8 a _ => windowOf a == .out8
  | .wrMbc2NopC a _ => windowOf a == .outC
  | .wrMbc5RombLo8 a _ => sliceOf a == .s1 && !addrBit12 a
  | .wrMbc5RombHi a _ => sliceOf a == .s1 && addrBit12 a
  | .wrMbc5Ramb a _ => sliceOf a == .s2
  | .wrMbc5Ramwr a _ => windowOf a == .xram
  | .wrMbc5Nop0 a _ => sliceOf a == .s0
  | .wrMbc5Nop6 a _ => sliceOf a == .s3
  | .wrMbc5Nop8 a _ => windowOf a == .out8
  | .wrMbc5NopC a _ => windowOf a == .outC
  | .reset => true
  | .saveMapping => true
  | .restoreMapping => true
  | .dbgwRom0 a _ => windowOf a == .rom0
  | .dbgwRomX a _ => windowOf a == .romX
  | .dbgwXram a _ => windowOf a == .xram
  | .dbgwOut8 a _ => windowOf a == .out8
  | .dbgwOutC a _ => windowOf a == .outC
  | .currentBank => true
  | .mapInfo => true

end Sys2Proof
end

