-- ==== Sys2Proof/Decode.lean ====
section
/-! DEFINITION. Decoding a transaction word `TW` (R80 to R94), the encoder, and the opcode table as data. -/

namespace Sys2Proof

open Sys2Proof.Machine

/-- Why a word is no transaction (R94). -/
inductive DecodeError where
  /-- `OP` is 0x8 to 0xF (R81). -/
  | reservedOperation (op : BitVec 4)
  /-- `FAM` is no family code (R82). -/
  | notAFamily (fam : BitVec 4)
deriving DecidableEq, Repr

/-- What the decoder reads in a word. -/
inductive Decoded where
  | ok (i : Instr)
  | error (e : DecodeError)
deriving DecidableEq, Repr

/-- The transaction, where there is one. -/
def Decoded.toOption : Decoded → Option Instr
  | .ok i => some i
  | .error _ => none

/-- `TW[31:28]` (R80). -/
def opOf (w : TW) : BitVec 4 := w.extractLsb' 28 4

/-- `TW[27:24]` (R80). -/
def famOf (w : TW) : BitVec 4 := w.extractLsb' 24 4

/-- `TW[23:8]` (R80). -/
def addrOf (w : TW) : Addr := w.extractLsb' 8 16

/-- `TW[7:0]` (R80). -/
def dataOf (w : TW) : Byte := w.extractLsb' 0 8

/-- The word of four fields (R80). -/
def packTW (op fam : BitVec 4) (a : Addr) (d : Byte) : TW := op ++ fam ++ a ++ d

/-- READ decode (R84). -/
def decodeRead (f : Family) (a : Addr) : Instr :=
  match f with
  | .none =>
    match windowOf a with
    | .rom0 => .rdRom0None a
    | .romX => .rdRomXNone a
    | .out8 => .rdOut8None a
    | .xram => .rdXramNone a
    | .outC => .rdOutCNone a
  | .mbc1 =>
    match windowOf a with
    | .rom0 => .rdRom0Mbc1 a
    | .romX => .rdRomXMbc1 a
    | .out8 => .rdOut8Mbc1 a
    | .xram => .rdXramMbc1 a
    | .outC => .rdOutCMbc1 a
  | .mbc2 =>
    match windowOf a with
    | .rom0 => .rdRom0Mbc2 a
    | .romX => .rdRomXMbc2 a
    | .out8 => .rdOut8Mbc2 a
    | .xram => .rdXramMbc2 a
    | .outC => .rdOutCMbc2 a
  | .mbc5 =>
    match windowOf a with
    | .rom0 => .rdRom0Mbc5 a
    | .romX => .rdRomXMbc5 a
    | .out8 => .rdOut8Mbc5 a
    | .xram => .rdXramMbc5 a
    | .outC => .rdOutCMbc5 a
  | .unsupported => .rdUnsup a

/-- WRITE decode on `MBC1` (R86). -/
def decodeWriteMbc1 (a : Addr) (d : Byte) : Instr :=
  match sliceOf a with
  | .s0 => .wrMbc1Ramen a d
  | .s1 => .wrMbc1RombLo a d
  | .s2 => .wrMbc1Bank2 a d
  | .s3 => .wrMbc1Modesel a d
  | .s4 => .wrMbc1Nop8 a d
  | .s5 => .wrMbc1Ramwr a d
  | .s6 => .wrMbc1NopC a d
  | .s7 => .wrMbc1NopC a d

/-- WRITE decode on `MBC2` (R87). -/
def decodeWriteMbc2 (a : Addr) (d : Byte) : Instr :=
  match sliceOf a with
  | .s0 => .wrMbc2Nop0 a d
  | .s1 => if addrBit8 a then .wrMbc2Romb a d else .wrMbc2NopA8 a d
  | .s2 => .wrMbc2Nop4 a d
  | .s3 => .wrMbc2Nop4 a d
  | .s4 => .wrMbc2Nop8 a d
  | .s5 => .wrMbc2Ramwr a d
  | .s6 => .wrMbc2NopC a d
  | .s7 => .wrMbc2NopC a d

/-- WRITE decode on `MBC5` (R88). -/
def decodeWriteMbc5 (a : Addr) (d : Byte) : Instr :=
  match sliceOf a with
  | .s0 => .wrMbc5Nop0 a d
  | .s1 => if addrBit12 a then .wrMbc5RombHi a d else .wrMbc5RombLo8 a d
  | .s2 => .wrMbc5Ramb a d
  | .s3 => .wrMbc5Nop6 a d
  | .s4 => .wrMbc5Nop8 a d
  | .s5 => .wrMbc5Ramwr a d
  | .s6 => .wrMbc5NopC a d
  | .s7 => .wrMbc5NopC a d

/-- WRITE decode (R85 to R88). -/
def decodeWrite (f : Family) (a : Addr) (d : Byte) : Instr :=
  match f with
  | .none => .wrNoneNop a d
  | .mbc1 => decodeWriteMbc1 a d
  | .mbc2 => decodeWriteMbc2 a d
  | .mbc5 => decodeWriteMbc5 a d
  | .unsupported => .wrUnsupNop a d

/-- DEBUG_WRITE decode, every family alike (R89). -/
def decodeDebugWrite (a : Addr) (d : Byte) : Instr :=
  match windowOf a with
  | .rom0 => .dbgwRom0 a d
  | .romX => .dbgwRomX a d
  | .out8 => .dbgwOut8 a d
  | .xram => .dbgwXram a d
  | .outC => .dbgwOutC a d

/-- The row a family, an operation and its operands select (R81, R84 to R90). -/
def decodeFields (op : BitVec 4) (f : Family) (a : Addr) (d : Byte) : Decoded :=
  match op.toNat with
  | 0x0 => .ok (decodeRead f a)
  | 0x1 => .ok (decodeWrite f a d)
  | 0x2 => .ok .reset
  | 0x3 => .ok .saveMapping
  | 0x4 => .ok .restoreMapping
  | 0x5 => .ok (decodeDebugWrite a d)
  | 0x6 => .ok .currentBank
  | 0x7 => .ok .mapInfo
  | _ => .error (.reservedOperation op)

/-- Decoding a word: an `OP` of 0x8 to 0xF and a `FAM` that is no family code are refused by name (R94). DEDUCED
(log entry 10), safe: the refusal of an unknown `FAM` holds for every operation, as R94 lists it, although the table's
masks of the operations 0x2 to 0x7 leave `FAM` out. -/
def decode (w : TW) : Decoded :=
  match familyOfCode (famOf w) with
  | some f => decodeFields (opOf w) f (addrOf w) (dataOf w)
  | none => if 8 ≤ (opOf w).toNat then .error (.reservedOperation (opOf w)) else .error (.notAFamily (famOf w))

/-- The word of a transaction on a block of family `f` (R80, R95). The rows of READ and WRITE name their own
family. The operations 0x2 to 0x7 ignore `FAM`, and their word carries the block's (R90, R95). -/
def encode (f : Family) : Instr → TW
  | .rdRom0None a => packTW 0x0#4 (familyCode .none) a 0x00#8
  | .rdRomXNone a => packTW 0x0#4 (familyCode .none) a 0x00#8
  | .rdXramNone a => packTW 0x0#4 (familyCode .none) a 0x00#8
  | .rdOut8None a => packTW 0x0#4 (familyCode .none) a 0x00#8
  | .rdOutCNone a => packTW 0x0#4 (familyCode .none) a 0x00#8
  | .rdRom0Mbc1 a => packTW 0x0#4 (familyCode .mbc1) a 0x00#8
  | .rdRomXMbc1 a => packTW 0x0#4 (familyCode .mbc1) a 0x00#8
  | .rdXramMbc1 a => packTW 0x0#4 (familyCode .mbc1) a 0x00#8
  | .rdOut8Mbc1 a => packTW 0x0#4 (familyCode .mbc1) a 0x00#8
  | .rdOutCMbc1 a => packTW 0x0#4 (familyCode .mbc1) a 0x00#8
  | .rdRom0Mbc2 a => packTW 0x0#4 (familyCode .mbc2) a 0x00#8
  | .rdRomXMbc2 a => packTW 0x0#4 (familyCode .mbc2) a 0x00#8
  | .rdXramMbc2 a => packTW 0x0#4 (familyCode .mbc2) a 0x00#8
  | .rdOut8Mbc2 a => packTW 0x0#4 (familyCode .mbc2) a 0x00#8
  | .rdOutCMbc2 a => packTW 0x0#4 (familyCode .mbc2) a 0x00#8
  | .rdRom0Mbc5 a => packTW 0x0#4 (familyCode .mbc5) a 0x00#8
  | .rdRomXMbc5 a => packTW 0x0#4 (familyCode .mbc5) a 0x00#8
  | .rdXramMbc5 a => packTW 0x0#4 (familyCode .mbc5) a 0x00#8
  | .rdOut8Mbc5 a => packTW 0x0#4 (familyCode .mbc5) a 0x00#8
  | .rdOutCMbc5 a => packTW 0x0#4 (familyCode .mbc5) a 0x00#8
  | .rdUnsup a => packTW 0x0#4 (familyCode .unsupported) a 0x00#8
  | .wrNoneNop a d => packTW 0x1#4 (familyCode .none) a d
  | .wrUnsupNop a d => packTW 0x1#4 (familyCode .unsupported) a d
  | .wrMbc1Ramen a d => packTW 0x1#4 (familyCode .mbc1) a d
  | .wrMbc1RombLo a d => packTW 0x1#4 (familyCode .mbc1) a d
  | .wrMbc1Bank2 a d => packTW 0x1#4 (familyCode .mbc1) a d
  | .wrMbc1Modesel a d => packTW 0x1#4 (familyCode .mbc1) a d
  | .wrMbc1Ramwr a d => packTW 0x1#4 (familyCode .mbc1) a d
  | .wrMbc1Nop8 a d => packTW 0x1#4 (familyCode .mbc1) a d
  | .wrMbc1NopC a d => packTW 0x1#4 (familyCode .mbc1) a d
  | .wrMbc2Romb a d => packTW 0x1#4 (familyCode .mbc2) a d
  | .wrMbc2NopA8 a d => packTW 0x1#4 (familyCode .mbc2) a d
  | .wrMbc2Ramwr a d => packTW 0x1#4 (familyCode .mbc2) a d
  | .wrMbc2Nop0 a d => packTW 0x1#4 (familyCode .mbc2) a d
  | .wrMbc2Nop4 a d => packTW 0x1#4 (familyCode .mbc2) a d
  | .wrMbc2Nop8 a d => packTW 0x1#4 (familyCode .mbc2) a d
  | .wrMbc2NopC a d => packTW 0x1#4 (familyCode .mbc2) a d
  | .wrMbc5RombLo8 a d => packTW 0x1#4 (familyCode .mbc5) a d
  | .wrMbc5RombHi a d => packTW 0x1#4 (familyCode .mbc5) a d
  | .wrMbc5Ramb a d => packTW 0x1#4 (familyCode .mbc5) a d
  | .wrMbc5Ramwr a d => packTW 0x1#4 (familyCode .mbc5) a d
  | .wrMbc5Nop0 a d => packTW 0x1#4 (familyCode .mbc5) a d
  | .wrMbc5Nop6 a d => packTW 0x1#4 (familyCode .mbc5) a d
  | .wrMbc5Nop8 a d => packTW 0x1#4 (familyCode .mbc5) a d
  | .wrMbc5NopC a d => packTW 0x1#4 (familyCode .mbc5) a d
  | .reset => packTW 0x2#4 (familyCode f) 0x0000#16 0x00#8
  | .saveMapping => packTW 0x3#4 (familyCode f) 0x0000#16 0x00#8
  | .restoreMapping => packTW 0x4#4 (familyCode f) 0x0000#16 0x00#8
  | .dbgwRom0 a d => packTW 0x5#4 (familyCode f) a d
  | .dbgwRomX a d => packTW 0x5#4 (familyCode f) a d
  | .dbgwXram a d => packTW 0x5#4 (familyCode f) a d
  | .dbgwOut8 a d => packTW 0x5#4 (familyCode f) a d
  | .dbgwOutC a d => packTW 0x5#4 (familyCode f) a d
  | .currentBank => packTW 0x6#4 (familyCode f) 0x0000#16 0x00#8
  | .mapInfo => packTW 0x7#4 (familyCode f) 0x0000#16 0x00#8

/-- A row of spec/opcode_table.json: a word `w` selects the row when `w & mask == bits` (R91). -/
structure TableRow where
  bits : TW
  mask : TW
deriving DecidableEq, Repr

/-- A word selects a row (R91). -/
def TableRow.selects (r : TableRow) (w : TW) : Bool := w &&& r.mask == r.bits

/-- The row of a transaction in spec/opcode_table.json. -/
def Instr.tableRow : Instr → TableRow
  | .rdRom0None _ => ⟨0x00000000#32, 0xFFC00000#32⟩
  | .rdRomXNone _ => ⟨0x00400000#32, 0xFFC00000#32⟩
  | .rdXramNone _ => ⟨0x00A00000#32, 0xFFE00000#32⟩
  | .rdOut8None _ => ⟨0x00800000#32, 0xFFE00000#32⟩
  | .rdOutCNone _ => ⟨0x00C00000#32, 0xFFC00000#32⟩
  | .rdRom0Mbc1 _ => ⟨0x01000000#32, 0xFFC00000#32⟩
  | .rdRomXMbc1 _ => ⟨0x01400000#32, 0xFFC00000#32⟩
  | .rdXramMbc1 _ => ⟨0x01A00000#32, 0xFFE00000#32⟩
  | .rdOut8Mbc1 _ => ⟨0x01800000#32, 0xFFE00000#32⟩
  | .rdOutCMbc1 _ => ⟨0x01C00000#32, 0xFFC00000#32⟩
  | .rdRom0Mbc2 _ => ⟨0x02000000#32, 0xFFC00000#32⟩
  | .rdRomXMbc2 _ => ⟨0x02400000#32, 0xFFC00000#32⟩
  | .rdXramMbc2 _ => ⟨0x02A00000#32, 0xFFE00000#32⟩
  | .rdOut8Mbc2 _ => ⟨0x02800000#32, 0xFFE00000#32⟩
  | .rdOutCMbc2 _ => ⟨0x02C00000#32, 0xFFC00000#32⟩
  | .rdRom0Mbc5 _ => ⟨0x05000000#32, 0xFFC00000#32⟩
  | .rdRomXMbc5 _ => ⟨0x05400000#32, 0xFFC00000#32⟩
  | .rdXramMbc5 _ => ⟨0x05A00000#32, 0xFFE00000#32⟩
  | .rdOut8Mbc5 _ => ⟨0x05800000#32, 0xFFE00000#32⟩
  | .rdOutCMbc5 _ => ⟨0x05C00000#32, 0xFFC00000#32⟩
  | .rdUnsup _ => ⟨0x0F000000#32, 0xFF000000#32⟩
  | .wrNoneNop _ _ => ⟨0x10000000#32, 0xFF000000#32⟩
  | .wrUnsupNop _ _ => ⟨0x1F000000#32, 0xFF000000#32⟩
  | .wrMbc1Ramen _ _ => ⟨0x11000000#32, 0xFFE00000#32⟩
  | .wrMbc1RombLo _ _ => ⟨0x11200000#32, 0xFFE00000#32⟩
  | .wrMbc1Bank2 _ _ => ⟨0x11400000#32, 0xFFE00000#32⟩
  | .wrMbc1Modesel _ _ => ⟨0x11600000#32, 0xFFE00000#32⟩
  | .wrMbc1Ramwr _ _ => ⟨0x11A00000#32, 0xFFE00000#32⟩
  | .wrMbc1Nop8 _ _ => ⟨0x11800000#32, 0xFFE00000#32⟩
  | .wrMbc1NopC _ _ => ⟨0x11C00000#32, 0xFFC00000#32⟩
  | .wrMbc2Romb _ _ => ⟨0x12210000#32, 0xFFE10000#32⟩
  | .wrMbc2NopA8 _ _ => ⟨0x12200000#32, 0xFFE10000#32⟩
  | .wrMbc2Ramwr _ _ => ⟨0x12A00000#32, 0xFFE00000#32⟩
  | .wrMbc2Nop0 _ _ => ⟨0x12000000#32, 0xFFE00000#32⟩
  | .wrMbc2Nop4 _ _ => ⟨0x12400000#32, 0xFFC00000#32⟩
  | .wrMbc2Nop8 _ _ => ⟨0x12800000#32, 0xFFE00000#32⟩
  | .wrMbc2NopC _ _ => ⟨0x12C00000#32, 0xFFC00000#32⟩
  | .wrMbc5RombLo8 _ _ => ⟨0x15200000#32, 0xFFF00000#32⟩
  | .wrMbc5RombHi _ _ => ⟨0x15300000#32, 0xFFF00000#32⟩
  | .wrMbc5Ramb _ _ => ⟨0x15400000#32, 0xFFE00000#32⟩
  | .wrMbc5Ramwr _ _ => ⟨0x15A00000#32, 0xFFE00000#32⟩
  | .wrMbc5Nop0 _ _ => ⟨0x15000000#32, 0xFFE00000#32⟩
  | .wrMbc5Nop6 _ _ => ⟨0x15600000#32, 0xFFE00000#32⟩
  | .wrMbc5Nop8 _ _ => ⟨0x15800000#32, 0xFFE00000#32⟩
  | .wrMbc5NopC _ _ => ⟨0x15C00000#32, 0xFFC00000#32⟩
  | .reset => ⟨0x20000000#32, 0xF0000000#32⟩
  | .saveMapping => ⟨0x30000000#32, 0xF0000000#32⟩
  | .restoreMapping => ⟨0x40000000#32, 0xF0000000#32⟩
  | .dbgwRom0 _ _ => ⟨0x50000000#32, 0xF0C00000#32⟩
  | .dbgwRomX _ _ => ⟨0x50400000#32, 0xF0C00000#32⟩
  | .dbgwXram _ _ => ⟨0x50A00000#32, 0xF0E00000#32⟩
  | .dbgwOut8 _ _ => ⟨0x50800000#32, 0xF0E00000#32⟩
  | .dbgwOutC _ _ => ⟨0x50C00000#32, 0xF0C00000#32⟩
  | .currentBank => ⟨0x60000000#32, 0xF0000000#32⟩
  | .mapInfo => ⟨0x70000000#32, 0xF0000000#32⟩

/-- The READ rows of spec/opcode_table.json. -/
def opcodeTableRead : List TableRow :=
  [⟨0x00000000#32, 0xFFC00000#32⟩, ⟨0x00400000#32, 0xFFC00000#32⟩, ⟨0x00A00000#32, 0xFFE00000#32⟩,
   ⟨0x00800000#32, 0xFFE00000#32⟩, ⟨0x00C00000#32, 0xFFC00000#32⟩, ⟨0x01000000#32, 0xFFC00000#32⟩,
   ⟨0x01400000#32, 0xFFC00000#32⟩, ⟨0x01A00000#32, 0xFFE00000#32⟩, ⟨0x01800000#32, 0xFFE00000#32⟩,
   ⟨0x01C00000#32, 0xFFC00000#32⟩, ⟨0x02000000#32, 0xFFC00000#32⟩, ⟨0x02400000#32, 0xFFC00000#32⟩,
   ⟨0x02A00000#32, 0xFFE00000#32⟩, ⟨0x02800000#32, 0xFFE00000#32⟩, ⟨0x02C00000#32, 0xFFC00000#32⟩,
   ⟨0x05000000#32, 0xFFC00000#32⟩, ⟨0x05400000#32, 0xFFC00000#32⟩, ⟨0x05A00000#32, 0xFFE00000#32⟩,
   ⟨0x05800000#32, 0xFFE00000#32⟩, ⟨0x05C00000#32, 0xFFC00000#32⟩, ⟨0x0F000000#32, 0xFF000000#32⟩]

/-- The WRITE rows of spec/opcode_table.json. -/
def opcodeTableWrite : List TableRow :=
  [⟨0x10000000#32, 0xFF000000#32⟩, ⟨0x1F000000#32, 0xFF000000#32⟩, ⟨0x11000000#32, 0xFFE00000#32⟩,
   ⟨0x11200000#32, 0xFFE00000#32⟩, ⟨0x11400000#32, 0xFFE00000#32⟩, ⟨0x11600000#32, 0xFFE00000#32⟩,
   ⟨0x11A00000#32, 0xFFE00000#32⟩, ⟨0x11800000#32, 0xFFE00000#32⟩, ⟨0x11C00000#32, 0xFFC00000#32⟩,
   ⟨0x12210000#32, 0xFFE10000#32⟩, ⟨0x12200000#32, 0xFFE10000#32⟩, ⟨0x12A00000#32, 0xFFE00000#32⟩,
   ⟨0x12000000#32, 0xFFE00000#32⟩, ⟨0x12400000#32, 0xFFC00000#32⟩, ⟨0x12800000#32, 0xFFE00000#32⟩,
   ⟨0x12C00000#32, 0xFFC00000#32⟩, ⟨0x15200000#32, 0xFFF00000#32⟩, ⟨0x15300000#32, 0xFFF00000#32⟩,
   ⟨0x15400000#32, 0xFFE00000#32⟩, ⟨0x15A00000#32, 0xFFE00000#32⟩, ⟨0x15000000#32, 0xFFE00000#32⟩,
   ⟨0x15600000#32, 0xFFE00000#32⟩, ⟨0x15800000#32, 0xFFE00000#32⟩, ⟨0x15C00000#32, 0xFFC00000#32⟩]

/-- The rows of the operations 0x2 to 0x7 of spec/opcode_table.json. -/
def opcodeTableOther : List TableRow :=
  [⟨0x20000000#32, 0xF0000000#32⟩, ⟨0x30000000#32, 0xF0000000#32⟩, ⟨0x40000000#32, 0xF0000000#32⟩,
   ⟨0x50000000#32, 0xF0C00000#32⟩, ⟨0x50400000#32, 0xF0C00000#32⟩, ⟨0x50A00000#32, 0xF0E00000#32⟩,
   ⟨0x50800000#32, 0xF0E00000#32⟩, ⟨0x50C00000#32, 0xF0C00000#32⟩, ⟨0x60000000#32, 0xF0000000#32⟩,
   ⟨0x70000000#32, 0xF0000000#32⟩]

/-- spec/opcode_table.json, all 55 rows in order (R91). -/
def opcodeTable : List TableRow := opcodeTableRead ++ opcodeTableWrite ++ opcodeTableOther

/-- The first `nbits` bits of `w` as a transaction word; the bits above are 0. -/
def tableWord (nbits w : Nat) : TW := BitVec.ofNat 32 (w % 2 ^ nbits)

/-- The transaction the decoder reads from a table word. -/
def decodeTableWord (nbits w : Nat) : Option Instr := (decode (tableWord nbits w)).toOption

end Sys2Proof
end

