-- ==== Sys2Proof/Machine/Fetch.lean ====
section
/-! DEFINITION. From the transaction an agent issued to the word the decoder reads, and back. -/

namespace Sys2Proof.Machine

/-- The transaction word of a request on a block with the strap `f`: "`FAM` is not supplied by the agent" (R80). -/
def Request.word (r : Request) (f : Family) : TW := packTW r.op (familyCode f) r.addr r.data

/-- The request a transaction word holds, without its `FAM`. -/
def requestOf (w : TW) : Request := ⟨opOf w, addrOf w, dataOf w⟩

/-- The refusal of a word that is no transaction (R94). -/
def refusalOf (e : DecodeError) : Refusal :=
  match e with
  | .reservedOperation op => .reservedOperation op
  | .notAFamily fam => .notAFamily fam

/-- The block takes the oldest pending transaction, which leaves the queue (R5, R65). -/
def State.withPending (s : State) (p : List Request) : State := { s with pending := p }

/-- `s` with the transaction of word `w` issued next, on a block whose strap is the word's `FAM`: the strap selects which
rows the block has (R7), so a word of another family needs its own. DESIGN CHOICE (log entry 1), safe. A word whose
`FAM` is no family code is no transaction (R82); it is queued as the reserved operation 0xF, which the step refuses. -/
def State.withWord (s : State) (w : TW) : State :=
  match familyOfCode (famOf w) with
  | some f => { s with fam := f, pending := requestOf w :: s.pending }
  | none => { s with pending := ⟨0xF#4, addrOf w, dataOf w⟩ :: s.pending }

end Sys2Proof.Machine
end

