-- ==== Sys2Proof/Machine/Step.lean ====
section
/-! DEFINITION. One step: the block accepts the oldest pending transaction, whole (R5). -/

namespace Sys2Proof.Machine

/-- One step. With no transaction pending the block does nothing: it "executes nothing on its own ... and changes
state only inside a transaction" (R4). -/
def step (s : State) : Host.Outcome State Fault Refusal :=
  match s.pending with
  | [] => .next s
  | r :: rest =>
    match decode (r.word s.fam) with
    | .ok i => exec i (s.withPending rest)
    | .error e => .refused (refusalOf e)

/-- `s` with the table word `w` as the transaction the next step takes (Machine/Fetch.lean). -/
def State.withFetchWord (s : State) (nbits w : Nat) : State := s.withWord (tableWord nbits w)

end Sys2Proof.Machine
end

