-- ==== Sys2Proof/Machine/Load.lean ====
section
/-! DEFINITION. The host operations LOAD and DETACH and the load-time components: the header parser, the checksum
verifier, the battery RAM store (spec/46_load_time.md; R211 to R218, R230, R243). They create and end the block and are
no rows of the opcode table (R81), so they are functions beside the step. -/

namespace Sys2Proof.Machine

/-- Load-time fatal errors: no block is created (R211, R212, R218). -/
inductive LoadError where
  /-- The image cannot hold the header (R211). -/
  | imageTooShort
  /-- The ROM size code is in no row of the size table (R212). -/
  | unknownRomSize (code : Byte)
deriving DecidableEq, Repr

/-- What is reported and does not stop anything (R213, R214). -/
inductive Report where
  | checksumMismatch
  | persistLoadFailed
  | persistSaveFailed
deriving DecidableEq, Repr

/-- What LOAD comes to. -/
inductive LoadResult where
  /-- A block in its power-on state, and what was reported on the way. -/
  | loaded (s : State) (reports : List Report)
  /-- "no cartridge object is produced" (R218). -/
  | fatal (e : LoadError)
  /-- The image is not exactly `16384 × BANK_COUNT` bytes long: the spec says refuse (R194, U14). Safe. -/
  | refusedImageLength
deriving DecidableEq, Repr

/-- What DETACH hands back to the host (R243). -/
structure DetachResult where
  /-- The bytes written to the persisted store, if any were. -/
  saved : Option (List Byte)
  reports : List Report
deriving DecidableEq, Repr

/-- Byte `off` of an image. -/
def imageByte (image : List Byte) (off : Nat) : Byte := image.getD off 0x00#8

/-- `OFF_ROMSIZE`, "the next offset" (R190). -/
def offRomSize (p : LoadParams) : Nat := p.offType + 1

/-- `BANK_COUNT` from the ROM size code; `none` is the source's -1 (R191, R192). -/
def bankCountOf (p : LoadParams) (code : Byte) : Option Nat :=
  if code.toNat < 8 then some (2 ^ (code.toNat + 1))
  else if code = p.oversize72 then some 72
  else if code = p.oversize80 then some 80
  else if code = p.oversize96 then some 96
  else none

/-- `TYPE_MAP`: byte 0 is `NONE`, and a byte assigned to no tag is `UNSUPPORTED` (R193). -/
def cartTypeOf (p : LoadParams) (code : Byte) : CartType :=
  if code = 0x00#8 then .none
  else
    match p.typeMap.lookup code with
    | some t => t
    | none => .unsupported

/-- `FAM` of a tag (R2, R193). -/
def familyOfType (t : CartType) : Family :=
  match t with
  | .none => .none
  | .mbc1 _ _ => .mbc1
  | .mbc2 _ => .mbc2
  | .mbc5 _ _ _ => .mbc5
  | .unsupported => .unsupported

/-- `BATTERY` of a tag (R13, R193). -/
def batteryOfType (t : CartType) : Bool :=
  match t with
  | .none => false
  | .mbc1 _ battery => battery
  | .mbc2 battery => battery
  | .mbc5 _ battery _ => battery
  | .unsupported => false

/-- `RAM_BANK_COUNT`: "code 0x03 yields 4 banks, any other value yields 1 bank" (R199). -/
def ramBankCountOf (code : Byte) : Nat := if code = 0x03#8 then 4 else 1

/-- `N`, the length of the persisted range (R197). -/
def persistedLength (fam : Family) (ramBankCount : Nat) : Nat :=
  match fam with
  | .mbc2 => 512
  | _ => ramBankCount * 8192

/-- The sum of the bytes from offset `off` up, modulo 65536, without the two bytes of the field at `field` (R195). -/
def checksumFrom (field off : Nat) (acc : BitVec 16) : List Byte → BitVec 16
  | [] => acc
  | b :: t =>
    if off = field ∨ off = field + 1 then checksumFrom field (off + 1) acc t
    else checksumFrom field (off + 1) (acc + b.setWidth 16) t

/-- The big-endian 16-bit value stored in the field (R195, R61). -/
def storedChecksum (field : Nat) (image : List Byte) : BitVec 16 :=
  imageByte image field ++ imageByte image (field + 1)

/-- The checksum verifier (R195). -/
def checksumValid (p : LoadParams) (image : List Byte) : Bool :=
  checksumFrom p.offChecksum 0 0#16 image == storedChecksum p.offChecksum image

/-- The persisted prefix after a store that is shorter than the `n` bytes wanted: free bytes (R197, D19, log entry 8). -/
def shortStorePrefix (n attempt : Nat) : Memory := Memory.ofBytes 0 ((List.range n).map (Config.shortStoreByte attempt))

/-- The bytes of the persisted store, where it exists; whether it can be written makes no difference to them. -/
def storeBytes (store : Store) : Option (List Byte) :=
  match store with
  | .missing => none
  | .present bytes => some bytes
  | .unwritable bytes => some bytes

/-- `RAM_INIT` (R197, D19): zero, but for the persisted prefix of a battery-backed family: the store's bytes where it has
at least `n`, zero where it is missing, free bytes where it is short. DEDUCED (log entry 14), unsafe: a store that cannot
be written is no exception here, although R214 says of it that RAM falls back to the zeroed state. -/
def ramInit (battery : Bool) (n attempt : Nat) (store : Store) : Memory :=
  if battery then
    match storeBytes store with
    | none => []
    | some bytes => if n ≤ bytes.length then Memory.ofBytes 0 (bytes.take n) else shortStorePrefix n attempt
  else []

/-- Whether the persistence load is reported as failed: a missing, short or unwritable store (R197, R214). -/
def persistLoadFails (battery : Bool) (n : Nat) (store : Store) : Bool :=
  match store with
  | .missing => battery
  | .present bytes => battery && bytes.length < n
  | .unwritable _ => battery

/-- The reports of a load, in the order of its checks (R217). -/
def loadReports (p : LoadParams) (battery : Bool) (n : Nat) (image : List Byte) (store : Store) : List Report :=
  (if checksumValid p image then [] else [.checksumMismatch]) ++
    (if persistLoadFails battery n store then [.persistLoadFailed] else [])

/-- Steps 4 to 8 of LOAD, on an image of the right length (R230). -/
def loadBlock (p : LoadParams) (attempt bankCount : Nat) (image : List Byte) (store : Store) : LoadResult :=
  let t := cartTypeOf p (imageByte image p.offType)
  let r := ramBankCountOf (imageByte image p.offRamSize)
  let n := persistedLength (familyOfType t) r
  .loaded
    (State.powerOn (familyOfType t) bankCount (batteryOfType t) r (Memory.ofBytes 0 image)
      (ramInit (batteryOfType t) n attempt store))
    (loadReports p (batteryOfType t) n image store)

/-- LOAD (R230). `attempt` numbers the loads a host makes, and only tells one short store's free bytes from
another's. -/
def load (p : LoadParams) (attempt : Nat) (image : List Byte) (store : Store) : LoadResult :=
  if image.length < 16384 then .fatal .imageTooShort
  else
    match bankCountOf p (imageByte image (offRomSize p)) with
    | none => .fatal (.unknownRomSize (imageByte image (offRomSize p)))
    | some n =>
      if image.length = 16384 * n then loadBlock p attempt n image store else .refusedImageLength

/-- DETACH (R243, R198): a battery-backed block hands back the first `N` bytes of RAM, whatever its registers are; a
store that cannot be written at that moment loses them, which is reported (R214). The block then ceases to exist. -/
def detach (s : State) (writable : Bool) : DetachResult :=
  if s.battery then
    if writable then ⟨some (s.ram.firstBytes (persistedLength s.fam s.ramBankCount)), []⟩
    else ⟨none, [.persistSaveFailed]⟩
  else ⟨none, []⟩

/-- The store after a DETACH: what was saved replaces it (R198). DEDUCED (log entry 12), safe: a save leaves nothing of
a longer store. After a save that failed the store is whatever it is: the spec does not say that the old file stays
intact. DESIGN CHOICE (log entry 13), safe. A DETACH that saves nothing leaves the store as it was. -/
def storeAfter (attempt : Nat) (store : Store) (r : DetachResult) : Store :=
  match r.saved with
  | some bytes => .present bytes
  | none => if .persistSaveFailed ∈ r.reports then Config.storeAfterLostSave attempt else store

/-- The characters of a name before its last dot, if it has one. -/
def beforeLastDot (name : List Char) : Option (List Char) :=
  match name with
  | [] => none
  | c :: t =>
    match beforeLastDot t with
    | some pre => some (c :: pre)
    | none => if c = '.' then some [] else none

/-- The key of the persisted store, from the image's file name without its folder (R196). DEDUCED (log entry 11), safe:
the extension is what follows the last dot. -/
def storeKey (p : LoadParams) (name : List Char) : List Char :=
  match beforeLastDot name with
  | some pre => pre ++ '.' :: p.saveExt
  | none => name ++ '.' :: p.saveExt

end Sys2Proof.Machine
end

