-- ==== Sys2Proof/Safety.lean ====
section
/-! DEFINITION. What the claims are stated in terms of: the invariants of reachable blocks (R33), the well-behaved bank
(R58), and which agent may issue what (R220). -/

namespace Sys2Proof.Machine

/-- `InImage(S)`: the bank `ROMB` names is inside the image (R58). -/
abbrev InImage (s : State) : Prop := s.romb.toNat * 16384 + 16383 < s.romLen

/-- What R33 says of a ROM bank number on each family. -/
def rombOk (f : Family) (b : BitVec 9) : Bool :=
  match f with
  | .none => b == 1#9
  | .unsupported => b == 1#9
  | .mbc1 => b.extractLsb' 7 2 == 0#2 && b.extractLsb' 0 5 != 0#5
  | .mbc2 => decide (1 ≤ b.toNat) && decide (b.toNat ≤ 31)
  | .mbc5 => true

/-- What R33 says of `SAVED`: a saved bank satisfies the family's `ROMB` invariant. -/
def savedOk (f : Family) (saved : Option (BitVec 9)) : Bool :=
  match saved with
  | none => true
  | some b => rombOk f b

/-- What R33 says of `RAMB`, `RAM_EN` and `MODE` on each family. -/
def latchesOk (f : Family) (ramb : BitVec 3) (ramEn mode : BitVec 1) : Bool :=
  match f with
  | .none => ramb == 0#3 && ramEn == 0#1 && mode == 0#1
  | .unsupported => ramb == 0#3 && ramEn == 0#1 && mode == 0#1
  | .mbc1 => ramb.extractLsb' 2 1 == 0#1
  | .mbc2 => ramb == 0#3 && ramEn == 0#1 && mode == 0#1
  | .mbc5 => ramEn == 0#1 && mode == 0#1

/-- The register invariants of R33, the one over `SAVED` among them. -/
abbrev RegistersInv (s : State) : Prop :=
  rombOk s.fam s.romb = true ∧ savedOk s.fam s.saved = true ∧ latchesOk s.fam s.ramb s.ramEn s.mode = true

/-- The arrays are canonical and no longer than the spec has them (R9, R11), and the bank count is a legal one
(R8). -/
abbrev ArraysInv (s : State) : Prop :=
  s.rom.wf ∧ s.rom.within s.romLen ∧ s.ram.wf ∧ s.ram.within ramCap ∧
  s.bankCount ∈ [2, 4, 8, 16, 32, 64, 128, 256, 72, 80, 96] ∧ (s.ramBankCount = 1 ∨ s.ramBankCount = 4)

/-- The invariant of every block that LOAD created. -/
abbrev BlockInv (s : State) : Prop := RegistersInv s ∧ ArraysInv s

/-- Everything the spec gives the block agrees, the arrays byte by byte; the model's own fields may differ. -/
abbrev SameBlock (s t : State) : Prop :=
  t.fam = s.fam ∧ t.bankCount = s.bankCount ∧ t.battery = s.battery ∧ t.ramBankCount = s.ramBankCount ∧
  t.romb = s.romb ∧ t.ramb = s.ramb ∧ t.ramEn = s.ramEn ∧ t.mode = s.mode ∧ t.saved = s.saved ∧
  (∀ off, t.romRead off = s.romRead off) ∧ (∀ off, t.ramRead off = s.ramRead off)

/-- The agents (R4). -/
inductive Agent where
  | cpu
  | dbg
  | host
deriving DecidableEq, Repr

/-- Which operation codes an agent may issue: the table of R220. The block does not check it: it is a premise on the
system around the block, as is the debugger's exclusive access while the CPU is halted (R179, R235). -/
def mayIssue (g : Agent) (op : BitVec 4) : Bool :=
  match g with
  | .cpu => op == 0x0#4 || op == 0x1#4
  | .dbg => op == 0x0#4 || op == 0x1#4 || op == 0x3#4 || op == 0x4#4 || op == 0x5#4 || op == 0x6#4 || op == 0x7#4
  | .host => op == 0x2#4

end Sys2Proof.Machine
end

