-- ==== Sys2Proof/Certificates/Slice0/Obligations.lean ====
section
/-! DEFINITION. The statements for the provers. Address ranges are written as the spec writes them, as numbers; a
statement about a row says both which words select it and what it does. `{ s with … }` on the right says that nothing
else of the state changes. -/

open Sys2Proof Sys2Proof.Machine

/-! ### Encoding and decode -/

/-- Decoding the word of a well-formed transaction gives it back, with every operand at every value the encoding admits,
on a block of any family (30_encoding.md sections 1 and 2). -/
def Obligations.EncodedTransactionsDecodeBack : Prop :=
  ∀ (f : Family) (i : Instr), i.wf = true → decode (encode f i) = .ok i

/-- Every word with an operation code of 0x0 to 0x7 and a family's code selects exactly one row of the opcode table, and
the decoder gives that row's transaction, well formed (R91, which the spec derives from R84 to R90). -/
def Obligations.EachWordSelectsExactlyOneRow : Prop :=
  ∀ (w : TW) (f : Family), (opOf w).toNat < 8 → familyOfCode (famOf w) = some f →
    ∃ i, decode w = .ok i ∧ i.wf = true ∧ i.tableRow ∈ opcodeTable ∧ i.tableRow.selects w = true ∧
      ∀ r ∈ opcodeTable, r.selects w = true → r = i.tableRow

/-- Words that are no transaction are refused by name (R94's last class). That an unknown family code is refused for the
operations 0x2 to 0x7 too is log entry 10. -/
def Obligations.WordsOutsideTheCodesAreRefused : Prop :=
  ∀ w : TW,
    (8 ≤ (opOf w).toNat → decode w = .error (.reservedOperation (opOf w))) ∧
    ((opOf w).toNat < 8 → (famOf w).toNat ∉ [0x0, 0x1, 0x2, 0x5, 0xF] → decode w = .error (.notAFamily (famOf w)))

/-- Words of the spec's table of decoded words (95_test_vectors.md section 2.9, EN1 to EN15). -/
def Obligations.ListedWordsDecode : Prop :=
  decode 0x11210005#32 = .ok (.wrMbc1RombLo 0x2100#16 0x05#8) ∧
  decode 0x12210005#32 = .ok (.wrMbc2Romb 0x2100#16 0x05#8) ∧
  decode 0x12200005#32 = .ok (.wrMbc2NopA8 0x2000#16 0x05#8) ∧
  decode 0x15210005#32 = .ok (.wrMbc5RombLo8 0x2100#16 0x05#8) ∧
  decode 0x15310005#32 = .ok (.wrMbc5RombHi 0x3100#16 0x05#8) ∧
  decode 0x10210005#32 = .ok (.wrNoneNop 0x2100#16 0x05#8) ∧
  decode 0x1F210005#32 = .ok (.wrUnsupNop 0x2100#16 0x05#8) ∧
  decode 0x01400000#32 = .ok (.rdRomXMbc1 0x4000#16) ∧
  decode 0x05A01000#32 = .ok (.rdXramMbc5 0xA010#16) ∧
  decode 0x02900000#32 = .ok (.rdOut8Mbc2 0x9000#16) ∧
  decode 0x0FC00000#32 = .ok (.rdUnsup 0xC000#16) ∧
  decode 0x514000CB#32 = .ok (.dbgwRomX 0x4000#16 0xCB#8) ∧
  decode 0x21000000#32 = .ok .reset ∧
  decode 0x13000000#32 = .error (.notAFamily 0x3#4) ∧
  decode 0x81000000#32 = .error (.reservedOperation 0x8#4)

/-! ### The step -/

/-- When the oldest pending transaction's word decodes to `i`, the step is exec of `i` on the state with that
transaction taken from the queue (00_scope.md section 4; the queue is log entry 1). -/
def Obligations.StepRunsTheDecodedTransaction : Prop :=
  ∀ (s : State) (r : Request) (rest : List Request) (i : Instr), s.pending = r :: rest →
    decode (packTW r.op (familyCode s.fam) r.addr r.data) = .ok i → step s = exec i { s with pending := rest }

/-- With nothing pending a step changes nothing: the block "executes nothing on its own, has no background activity and
changes state only inside a transaction" (R4; that such a step exists is log entry 1). -/
def Obligations.TheBlockIsIdleWithoutATransaction : Prop :=
  ∀ s : State, s.pending = [] → step s = .next s

/-- Every transaction completes, in every state, on every family, at every address, with every data byte; the one
exception is a DEBUG_WRITE into the switched window beyond the image, which the spec refuses by its decision D10 (R210,
R242, R174). An operation code of 0x8 to 0xF is no transaction and is refused by name (R81, R94). -/
def Obligations.EveryTransactionCompletesBarOne : Prop :=
  ∀ (s : State) (r : Request) (rest : List Request), s.pending = r :: rest →
    if 8 ≤ r.op.toNat then step s = .refused (.reservedOperation r.op)
    else if r.op = 0x5#4 ∧ 0x4000 ≤ r.addr.toNat ∧ r.addr.toNat < 0x8000 ∧
        16384 * s.bankCount ≤ s.romb.toNat * 16384 + (r.addr.toNat - 0x4000)
    then step s = .refused .romOffsetBeyondImage
    else ∃ t, step s = .next t ∧ t.pending = rest

/-! ### READ -/

/-- R110: a READ below 0x4000 gives the byte of ROM bank 0 at the address itself, whatever the registers hold. -/
def Obligations.ReadOfTheFixedWindowGivesBankZero : Prop :=
  ∀ (s : State) (a : Addr) (d : Byte), a.toNat < 0x4000 →
    ∀ p ∈ [(0x0#4, Instr.rdRom0None a), (0x1#4, Instr.rdRom0Mbc1 a), (0x2#4, Instr.rdRom0Mbc2 a),
        (0x5#4, Instr.rdRom0Mbc5 a)],
      decode (packTW 0x0#4 p.1 a d) = .ok p.2 ∧
      exec p.2 s = .next { s with output := .byte (s.romRead a.toNat) }

/-- R111: a READ in 0x4000–0x7FFF gives the byte at `{ROMB, addr[13:0]}`, and beyond the image a free byte, changing
no state of the block. That the answer there is any byte is the spec's decision D10; the free byte is log entry 4. -/
def Obligations.ReadOfTheSwitchedWindowGivesTheMappedBank : Prop :=
  ∀ (s : State) (a : Addr) (d : Byte), 0x4000 ≤ a.toNat → a.toNat < 0x8000 →
    ∀ p ∈ [(0x0#4, Instr.rdRomXNone a), (0x1#4, Instr.rdRomXMbc1 a), (0x2#4, Instr.rdRomXMbc2 a),
        (0x5#4, Instr.rdRomXMbc5 a)],
      decode (packTW 0x0#4 p.1 a d) = .ok p.2 ∧
      exec p.2 s =
        .next (if (s.romb ++ a.extractLsb' 0 14).toNat < 16384 * s.bankCount then
          { s with output := .byte (s.romRead (s.romb ++ a.extractLsb' 0 14).toNat) }
        else { s with output := .byte (Config.undef8 s.draws), draws := s.draws + 1 })

/-- R112: a READ in 0xA000–0xBFFF gives the byte at `RAMB × 8192 + (addr − 0xA000)`, whatever `RAM_EN` and `MODE` hold,
on every family but UNSUPPORTED. -/
def Obligations.ReadOfTheRamWindowIsNotGated : Prop :=
  ∀ (s : State) (a : Addr) (d : Byte), 0xA000 ≤ a.toNat → a.toNat < 0xC000 →
    ∀ p ∈ [(0x0#4, Instr.rdXramNone a), (0x1#4, Instr.rdXramMbc1 a), (0x2#4, Instr.rdXramMbc2 a),
        (0x5#4, Instr.rdXramMbc5 a)],
      decode (packTW 0x0#4 p.1 a d) = .ok p.2 ∧
      exec p.2 s = .next { s with output := .byte (s.ramRead (s.ramb.toNat * 8192 + (a.toNat - 0xA000))) }

/-- R113: a READ in 0x8000–0x9FFF or 0xC000–0xFFFF answers a free byte and changes no state of the block (the spec's
decision D11; the free byte is log entry 4). -/
def Obligations.ReadOutsideTheWindowsAnswersAFreeByte : Prop :=
  ∀ (s : State) (a : Addr) (d : Byte),
    (0x8000 ≤ a.toNat → a.toNat < 0xA000 →
      ∀ p ∈ [(0x0#4, Instr.rdOut8None a), (0x1#4, Instr.rdOut8Mbc1 a), (0x2#4, Instr.rdOut8Mbc2 a),
          (0x5#4, Instr.rdOut8Mbc5 a)],
        decode (packTW 0x0#4 p.1 a d) = .ok p.2 ∧
        exec p.2 s = .next { s with output := .byte (Config.undef8 s.draws), draws := s.draws + 1 }) ∧
    (0xC000 ≤ a.toNat →
      ∀ p ∈ [(0x0#4, Instr.rdOutCNone a), (0x1#4, Instr.rdOutCMbc1 a), (0x2#4, Instr.rdOutCMbc2 a),
          (0x5#4, Instr.rdOutCMbc5 a)],
        decode (packTW 0x0#4 p.1 a d) = .ok p.2 ∧
        exec p.2 s = .next { s with output := .byte (Config.undef8 s.draws), draws := s.draws + 1 })

/-- R114: on an UNSUPPORTED block a READ at any address answers a free byte and changes no state of the block (the
spec's decision D12; the free byte is log entry 4). -/
def Obligations.ReadOnUnsupportedAnswersAFreeByte : Prop :=
  ∀ (s : State) (a : Addr) (d : Byte),
    decode (packTW 0x0#4 0xF#4 a d) = .ok (.rdUnsup a) ∧
    exec (.rdUnsup a) s = .next { s with output := .byte (Config.undef8 s.draws), draws := s.draws + 1 }

/-- R115: every READ leaves every register, both arrays and `SAVED` as they were and answers a byte; and a READ at one
address of two blocks in the same state answers the same byte, except where the result is `Undef8()`. -/
def Obligations.EveryReadIsPure : Prop :=
  ∀ (s : State) (r : Request) (rest : List Request), s.pending = r :: rest → r.op = 0x0#4 →
    (∃ t b, step s = .next t ∧ t.output = .byte b ∧
      t = { s with pending := rest, output := .byte b, draws := t.draws }) ∧
    ∀ (u : State) (rest' : List Request) (t t' : State), u.pending = r :: rest' → SameBlock s u →
      s.fam ≠ .unsupported →
      (r.addr.toNat < 0x4000 ∨ (0xA000 ≤ r.addr.toNat ∧ r.addr.toNat < 0xC000) ∨
        (0x4000 ≤ r.addr.toNat ∧ r.addr.toNat < 0x8000 ∧
          s.romb.toNat * 16384 + (r.addr.toNat - 0x4000) < 16384 * s.bankCount)) →
      step s = .next t → step u = .next t' → t'.output = t.output

/-! ### WRITE -/

/-- R120, R121: on NONE and UNSUPPORTED a WRITE at any address with any data changes nothing. -/
def Obligations.WritesOnNoneAndUnsupportedDoNothing : Prop :=
  ∀ (s : State) (a : Addr) (d : Byte),
    ∀ p ∈ [(0x0#4, Instr.wrNoneNop a d), (0xF#4, Instr.wrUnsupNop a d)],
      decode (packTW 0x1#4 p.1 a d) = .ok p.2 ∧ exec p.2 s = .next { s with output := .none }

/-- R131: on MBC1 a WRITE below 0x2000 sets `RAM_EN` exactly when the low nibble of the data is 0xA, and clears it
otherwise. -/
def Obligations.Mbc1RamEnableIsTheLowNibble : Prop :=
  ∀ (s : State) (a : Addr) (d : Byte), a.toNat < 0x2000 →
    decode (packTW 0x1#4 0x1#4 a d) = .ok (.wrMbc1Ramen a d) ∧
    exec (.wrMbc1Ramen a d) s =
      .next { s with ramEn := if d.toNat % 16 = 0xA then 1#1 else 0#1, output := .none }

/-- R132: on MBC1 a WRITE in 0x2000–0x3FFF replaces `ROMB[4:0]` by `data[4:0]`, 0 forced to 1, keeps `ROMB[6:5]` and
leaves `ROMB[8:7]` at 0, in both modes. -/
def Obligations.Mbc1LowBankBitsForceZeroToOne : Prop :=
  ∀ (s : State) (a : Addr) (d : Byte), 0x2000 ≤ a.toNat → a.toNat < 0x4000 →
    decode (packTW 0x1#4 0x1#4 a d) = .ok (.wrMbc1RombLo a d) ∧
    exec (.wrMbc1RombLo a d) s =
      .next { s with
        romb := 0#2 ++ s.romb.extractLsb' 5 2 ++ (if d.extractLsb' 0 5 = 0#5 then 1#5 else d.extractLsb' 0 5),
        output := .none }

/-- R133: on MBC1 a WRITE in 0x4000–0x5FFF puts `data[1:0]` into `RAMB` when `MODE` is 1, and into `ROMB[6:5]` with
`ROMB[4:0]` kept when `MODE` is 0; never both. -/
def Obligations.Mbc1SecondaryBitsGoWhereTheModeSays : Prop :=
  ∀ (s : State) (a : Addr) (d : Byte), 0x4000 ≤ a.toNat → a.toNat < 0x6000 →
    decode (packTW 0x1#4 0x1#4 a d) = .ok (.wrMbc1Bank2 a d) ∧
    exec (.wrMbc1Bank2 a d) s =
      .next (if s.mode = 1#1 then { s with ramb := 0#1 ++ d.extractLsb' 0 2, output := .none }
        else { s with romb := 0#2 ++ d.extractLsb' 0 2 ++ s.romb.extractLsb' 0 5, output := .none })

/-- R134: on MBC1 a WRITE in 0x6000–0x7FFF sets `MODE` to `data[0]` and changes nothing else. -/
def Obligations.Mbc1ModeIsTheLowBit : Prop :=
  ∀ (s : State) (a : Addr) (d : Byte), 0x6000 ≤ a.toNat → a.toNat < 0x8000 →
    decode (packTW 0x1#4 0x1#4 a d) = .ok (.wrMbc1Modesel a d) ∧
    exec (.wrMbc1Modesel a d) s =
      .next { s with mode := if d.toNat % 2 = 1 then 1#1 else 0#1, output := .none }

/-- R135: on MBC1 a WRITE in 0xA000–0xBFFF stores the byte at `RAMB × 8192 + (addr − 0xA000)` when `RAM_EN` is 1, in
both modes, and does nothing when it is 0. Every other RAM byte and everything else stays. -/
def Obligations.Mbc1RamStoresAreGated : Prop :=
  ∀ (s : State) (a : Addr) (d : Byte), 0xA000 ≤ a.toNat → a.toNat < 0xC000 →
    decode (packTW 0x1#4 0x1#4 a d) = .ok (.wrMbc1Ramwr a d) ∧
    ∃ t, exec (.wrMbc1Ramwr a d) s = .next t ∧ { t with ram := s.ram } = { s with output := .none } ∧
      if s.ramEn = 1#1 then
        ∀ off, t.ramRead off = if off = s.ramb.toNat * 8192 + (a.toNat - 0xA000) then d else s.ramRead off
      else t.ram = s.ram

/-- R136: on MBC1 a WRITE in 0x8000–0x9FFF or 0xC000–0xFFFF changes nothing. -/
def Obligations.Mbc1WritesOutsideDoNothing : Prop :=
  ∀ (s : State) (a : Addr) (d : Byte),
    (0x8000 ≤ a.toNat → a.toNat < 0xA000 →
      decode (packTW 0x1#4 0x1#4 a d) = .ok (.wrMbc1Nop8 a d) ∧
      exec (.wrMbc1Nop8 a d) s = .next { s with output := .none }) ∧
    (0xC000 ≤ a.toNat →
      decode (packTW 0x1#4 0x1#4 a d) = .ok (.wrMbc1NopC a d) ∧
      exec (.wrMbc1NopC a d) s = .next { s with output := .none })

/-- The transition summary of 42_write_mbc1.md: one step of an MBC1 block on a WRITE performs the action of exactly one
window, chosen by the address. -/
def Obligations.Mbc1WriteStepsFollowTheTransitionTable : Prop :=
  ∀ (s : State) (r : Request) (rest : List Request), s.pending = r :: rest → r.op = 0x1#4 → s.fam = .mbc1 →
    ∃ t, step s = .next t ∧ { t with romb := s.romb, ramb := s.ramb, ramEn := s.ramEn, mode := s.mode, ram := s.ram } =
        { s with pending := rest, output := .none } ∧
      t.ramEn.toNat = (if r.addr.toNat < 0x2000 then (if r.data.toNat % 16 = 0xA then 1 else 0) else s.ramEn.toNat) ∧
      t.romb.toNat =
        (if 0x2000 ≤ r.addr.toNat ∧ r.addr.toNat < 0x4000 then
          s.romb.toNat / 32 % 4 * 32 + max (r.data.toNat % 32) 1
        else if 0x4000 ≤ r.addr.toNat ∧ r.addr.toNat < 0x6000 ∧ s.mode = 0#1 then
          s.romb.toNat % 32 + r.data.toNat % 4 * 32
        else s.romb.toNat) ∧
      t.ramb.toNat =
        (if 0x4000 ≤ r.addr.toNat ∧ r.addr.toNat < 0x6000 ∧ s.mode = 1#1 then r.data.toNat % 4 else s.ramb.toNat) ∧
      t.mode.toNat = (if 0x6000 ≤ r.addr.toNat ∧ r.addr.toNat < 0x8000 then r.data.toNat % 2 else s.mode.toNat) ∧
      ∀ off, t.ramRead off =
        if 0xA000 ≤ r.addr.toNat ∧ r.addr.toNat < 0xC000 ∧ s.ramEn = 1#1 ∧
            off = s.ramb.toNat * 8192 + (r.addr.toNat - 0xA000)
        then r.data else s.ramRead off

/-- R151: on MBC2 a WRITE in 0x2000–0x3FFF with `addr[8] = 1` makes the whole of `ROMB` the low five data bits, 0 forced
to 1 after the mask (the mask first is the spec's decision D13). -/
def Obligations.Mbc2BankSelectNeedsAddressBitEight : Prop :=
  ∀ (s : State) (a : Addr) (d : Byte), 0x2000 ≤ a.toNat → a.toNat < 0x4000 → a.toNat / 256 % 2 = 1 →
    decode (packTW 0x1#4 0x2#4 a d) = .ok (.wrMbc2Romb a d) ∧
    ∃ t, exec (.wrMbc2Romb a d) s = .next t ∧ t.romb.toNat = max (d.toNat % 32) 1 ∧
      t = { s with romb := t.romb, output := .none }

/-- R152, R154: every other MBC2 WRITE outside the RAM window changes nothing (that 0x0000–0x1FFF does not set `RAM_EN`
is the spec's decision D8). -/
def Obligations.Mbc2OtherWritesDoNothing : Prop :=
  ∀ (s : State) (a : Addr) (d : Byte),
    (a.toNat < 0x2000 → decode (packTW 0x1#4 0x2#4 a d) = .ok (.wrMbc2Nop0 a d) ∧
      exec (.wrMbc2Nop0 a d) s = .next { s with output := .none }) ∧
    (0x2000 ≤ a.toNat → a.toNat < 0x4000 → a.toNat / 256 % 2 = 0 →
      decode (packTW 0x1#4 0x2#4 a d) = .ok (.wrMbc2NopA8 a d) ∧
      exec (.wrMbc2NopA8 a d) s = .next { s with output := .none }) ∧
    (0x4000 ≤ a.toNat → a.toNat < 0x8000 → decode (packTW 0x1#4 0x2#4 a d) = .ok (.wrMbc2Nop4 a d) ∧
      exec (.wrMbc2Nop4 a d) s = .next { s with output := .none }) ∧
    (0x8000 ≤ a.toNat → a.toNat < 0xA000 → decode (packTW 0x1#4 0x2#4 a d) = .ok (.wrMbc2Nop8 a d) ∧
      exec (.wrMbc2Nop8 a d) s = .next { s with output := .none }) ∧
    (0xC000 ≤ a.toNat → decode (packTW 0x1#4 0x2#4 a d) = .ok (.wrMbc2NopC a d) ∧
      exec (.wrMbc2NopC a d) s = .next { s with output := .none })

/-- R153: on MBC2 a WRITE in 0xA000–0xBFFF stores the whole byte at `RAMB × 8192 + (addr − 0xA000)`, with no 512-byte
mirror, when `RAM_EN` is 1, and does nothing when it is 0; so in every block that meets the invariant, where `RAM_EN`
is 0 (the spec's decision D8), it never stores. -/
def Obligations.Mbc2RamStoresAreGated : Prop :=
  ∀ (s : State) (a : Addr) (d : Byte), 0xA000 ≤ a.toNat → a.toNat < 0xC000 →
    decode (packTW 0x1#4 0x2#4 a d) = .ok (.wrMbc2Ramwr a d) ∧
    ∃ t, exec (.wrMbc2Ramwr a d) s = .next t ∧ { t with ram := s.ram } = { s with output := .none } ∧
      (if s.ramEn = 1#1 then
        ∀ off, t.ramRead off = if off = s.ramb.toNat * 8192 + (a.toNat - 0xA000) then d else s.ramRead off
      else t.ram = s.ram) ∧
      (RegistersInv s → s.fam = .mbc2 → t.ram = s.ram)

/-- R161: on MBC5 a WRITE in 0x2000–0x2FFF sets `ROMB[7:0]` to the data byte, keeps `ROMB[8]`, and does not remap 0. -/
def Obligations.Mbc5LowBankBitsAreTheByte : Prop :=
  ∀ (s : State) (a : Addr) (d : Byte), 0x2000 ≤ a.toNat → a.toNat < 0x3000 →
    decode (packTW 0x1#4 0x5#4 a d) = .ok (.wrMbc5RombLo8 a d) ∧
    exec (.wrMbc5RombLo8 a d) s = .next { s with romb := s.romb.extractLsb' 8 1 ++ d, output := .none }

/-- R162: on MBC5 a WRITE in 0x3000–0x3FFF sets `ROMB[8]` to `data[0]` and keeps `ROMB[7:0]`. -/
def Obligations.Mbc5HighBankBitIsDataBitZero : Prop :=
  ∀ (s : State) (a : Addr) (d : Byte), 0x3000 ≤ a.toNat → a.toNat < 0x4000 →
    decode (packTW 0x1#4 0x5#4 a d) = .ok (.wrMbc5RombHi a d) ∧
    exec (.wrMbc5RombHi a d) s =
      .next { s with romb := d.extractLsb' 0 1 ++ s.romb.extractLsb' 0 8, output := .none }

/-- The source's property (R162, 95_test_vectors.md S3): a WRITE in 0x2000–0x2FFF and one in 0x3000–0x3FFF, in either
order, leave the 9-bit bank `(bit8 << 8) | low8`, bank 0 among them. -/
def Obligations.Mbc5TwoWritesSetTheNineBitBank : Prop :=
  ∀ (s : State) (a b : Addr) (lo hi : Byte) (rest : List Request), s.fam = .mbc5 →
    0x2000 ≤ a.toNat → a.toNat < 0x3000 → 0x3000 ≤ b.toNat → b.toNat < 0x4000 →
    (s.pending = ⟨0x1#4, a, lo⟩ :: ⟨0x1#4, b, hi⟩ :: rest ∨ s.pending = ⟨0x1#4, b, hi⟩ :: ⟨0x1#4, a, lo⟩ :: rest) →
    ∃ t, Sys2Proof.core.run 2 s = .next t ∧ t.romb.toNat = hi.toNat % 2 * 256 + lo.toNat ∧
      t = { s with romb := t.romb, pending := rest, output := .none }

/-- R163: on MBC5 a WRITE in 0x4000–0x5FFF sets `RAMB` to `data[2:0]`. -/
def Obligations.Mbc5RamBankIsThreeBits : Prop :=
  ∀ (s : State) (a : Addr) (d : Byte), 0x4000 ≤ a.toNat → a.toNat < 0x6000 →
    decode (packTW 0x1#4 0x5#4 a d) = .ok (.wrMbc5Ramb a d) ∧
    exec (.wrMbc5Ramb a d) s = .next { s with ramb := d.extractLsb' 0 3, output := .none }

/-- R164: on MBC5 a WRITE in 0xA000–0xBFFF stores the byte at `RAMB × 8192 + (addr − 0xA000)`, whatever `RAM_EN`
holds. -/
def Obligations.Mbc5RamStoresAreNotGated : Prop :=
  ∀ (s : State) (a : Addr) (d : Byte), 0xA000 ≤ a.toNat → a.toNat < 0xC000 →
    decode (packTW 0x1#4 0x5#4 a d) = .ok (.wrMbc5Ramwr a d) ∧
    ∃ t, exec (.wrMbc5Ramwr a d) s = .next t ∧ { t with ram := s.ram } = { s with output := .none } ∧
      ∀ off, t.ramRead off = if off = s.ramb.toNat * 8192 + (a.toNat - 0xA000) then d else s.ramRead off

/-- R165: every other MBC5 WRITE changes nothing (that 0x0000–0x1FFF does not set `RAM_EN` is the spec's decision
D9). -/
def Obligations.Mbc5OtherWritesDoNothing : Prop :=
  ∀ (s : State) (a : Addr) (d : Byte),
    (a.toNat < 0x2000 → decode (packTW 0x1#4 0x5#4 a d) = .ok (.wrMbc5Nop0 a d) ∧
      exec (.wrMbc5Nop0 a d) s = .next { s with output := .none }) ∧
    (0x6000 ≤ a.toNat → a.toNat < 0x8000 → decode (packTW 0x1#4 0x5#4 a d) = .ok (.wrMbc5Nop6 a d) ∧
      exec (.wrMbc5Nop6 a d) s = .next { s with output := .none }) ∧
    (0x8000 ≤ a.toNat → a.toNat < 0xA000 → decode (packTW 0x1#4 0x5#4 a d) = .ok (.wrMbc5Nop8 a d) ∧
      exec (.wrMbc5Nop8 a d) s = .next { s with output := .none }) ∧
    (0xC000 ≤ a.toNat → decode (packTW 0x1#4 0x5#4 a d) = .ok (.wrMbc5NopC a d) ∧
      exec (.wrMbc5NopC a d) s = .next { s with output := .none })

/-- A WRITE in the RAM window followed by a READ of the same address (95_test_vectors.md Q7): the READ answers the
written byte on MBC5 always and on MBC1 and MBC2 when `RAM_EN` is 1, and the byte that was there on MBC1 and MBC2 when
it is 0 and on NONE. On UNSUPPORTED the READ answers a free byte (ReadOnUnsupportedAnswersAFreeByte). -/
def Obligations.RamReadAfterWriteFollowsTheGate : Prop :=
  ∀ (s : State) (a : Addr) (d e : Byte) (rest : List Request), 0xA000 ≤ a.toNat → a.toNat < 0xC000 →
    s.pending = ⟨0x1#4, a, d⟩ :: ⟨0x0#4, a, e⟩ :: rest → s.fam ≠ .unsupported →
    ∃ t, Sys2Proof.core.run 2 s = .next t ∧ t.pending = rest ∧
      t.output = .byte (if s.fam = .mbc5 ∨ ((s.fam = .mbc1 ∨ s.fam = .mbc2) ∧ s.ramEn = 1#1) then d
        else s.ramRead (s.ramb.toNat * 8192 + (a.toNat - 0xA000)))

/-! ### The debug port -/

/-- R171: SAVE_MAPPING captures `ROMB` when nothing is saved and does nothing otherwise, on every family (the spec's
decision D24, log entry 9). -/
def Obligations.SaveMappingCapturesOnlyTheFirstTime : Prop :=
  ∀ (s : State) (f : Family) (a : Addr) (d : Byte),
    decode (packTW 0x3#4 (familyCode f) a d) = .ok .saveMapping ∧
    exec .saveMapping s =
      .next (if s.saved = none then { s with saved := some s.romb, output := .none } else { s with output := .none })

/-- R172: RESTORE_MAPPING maps the saved bank as it is and ends the override, and does nothing when nothing is saved
(the bank taken unmasked is the spec's decision D14, and every family alike its decision D24: log entry 9). -/
def Obligations.RestoreMappingMapsTheSavedBank : Prop :=
  ∀ (s : State) (f : Family) (a : Addr) (d : Byte),
    decode (packTW 0x4#4 (familyCode f) a d) = .ok .restoreMapping ∧
    (s.saved = none → exec .restoreMapping s = .next { s with output := .none }) ∧
    ∀ b, s.saved = some b → exec .restoreMapping s = .next { s with romb := b, saved := none, output := .none }

/-- R170: the override FSM. SAVE_MAPPING and RESTORE_MAPPING move it as the table says, saving and restoring the ROM
bank only, and no other transaction changes `SAVED`. -/
def Obligations.OnlySaveAndRestoreMoveTheOverride : Prop :=
  ∀ (s t : State) (r : Request) (rest : List Request), s.pending = r :: rest → step s = .next t →
    (r.op = 0x3#4 → t = { s with saved := some (s.saved.getD s.romb), pending := rest, output := .none }) ∧
    (r.op = 0x4#4 → t = { s with romb := s.saved.getD s.romb, saved := none, pending := rest, output := .none }) ∧
    (r.op ≠ 0x3#4 → r.op ≠ 0x4#4 → t.saved = s.saved)

/-- R173: a DEBUG_WRITE below 0x4000 writes the ROM byte at the address itself and changes nothing else, on every family
(the spec's decision D24, log entry 9). -/
def Obligations.DebugWriteToTheFixedWindowWritesRom : Prop :=
  ∀ (s : State) (f : Family) (a : Addr) (d : Byte), a.toNat < 0x4000 →
    decode (packTW 0x5#4 (familyCode f) a d) = .ok (.dbgwRom0 a d) ∧
    ∃ t, exec (.dbgwRom0 a d) s = .next t ∧ { t with rom := s.rom } = { s with output := .none } ∧
      ∀ off, t.romRead off = if off = a.toNat then d else s.romRead off

/-- R174 inside the image: a DEBUG_WRITE in 0x4000–0x7FFF writes the ROM byte of the mapped bank and changes nothing
else, on every family (the spec's decision D24, log entry 9). -/
def Obligations.DebugWriteToTheSwitchedWindowWritesTheMappedBank : Prop :=
  ∀ (s : State) (f : Family) (a : Addr) (d : Byte), 0x4000 ≤ a.toNat → a.toNat < 0x8000 →
    s.romb.toNat * 16384 + (a.toNat - 0x4000) < 16384 * s.bankCount →
    decode (packTW 0x5#4 (familyCode f) a d) = .ok (.dbgwRomX a d) ∧
    ∃ t, exec (.dbgwRomX a d) s = .next t ∧ { t with rom := s.rom } = { s with output := .none } ∧
      ∀ off, t.romRead off =
        if off = s.romb.toNat * 16384 + (a.toNat - 0x4000) then d else s.romRead off

/-- R174 beyond the image: the DEBUG_WRITE is refused by name (the spec's decision D10), on every family (its decision
D24, log entry 9). -/
def Obligations.DebugWriteBeyondTheImageIsRefused : Prop :=
  ∀ (s : State) (f : Family) (a : Addr) (d : Byte), 0x4000 ≤ a.toNat → a.toNat < 0x8000 →
    16384 * s.bankCount ≤ s.romb.toNat * 16384 + (a.toNat - 0x4000) →
    decode (packTW 0x5#4 (familyCode f) a d) = .ok (.dbgwRomX a d) ∧
    exec (.dbgwRomX a d) s = .refused .romOffsetBeyondImage

/-- R175: a DEBUG_WRITE in 0xA000–0xBFFF stores the RAM byte whatever `RAM_EN` holds (which the spec derives), on every
family (its decision D24, log entry 9), and changes nothing else. -/
def Obligations.DebugWriteToTheRamWindowIsNotGated : Prop :=
  ∀ (s : State) (f : Family) (a : Addr) (d : Byte), 0xA000 ≤ a.toNat → a.toNat < 0xC000 →
    decode (packTW 0x5#4 (familyCode f) a d) = .ok (.dbgwXram a d) ∧
    ∃ t, exec (.dbgwXram a d) s = .next t ∧ { t with ram := s.ram } = { s with output := .none } ∧
      ∀ off, t.ramRead off = if off = s.ramb.toNat * 8192 + (a.toNat - 0xA000) then d else s.ramRead off

/-- R176: a DEBUG_WRITE in 0x8000–0x9FFF or 0xC000–0xFFFF changes nothing (the spec's decision D15), on every
family (its decision D24, log entry 9). -/
def Obligations.DebugWriteOutsideDoesNothing : Prop :=
  ∀ (s : State) (f : Family) (a : Addr) (d : Byte),
    (0x8000 ≤ a.toNat → a.toNat < 0xA000 →
      decode (packTW 0x5#4 (familyCode f) a d) = .ok (.dbgwOut8 a d) ∧
      exec (.dbgwOut8 a d) s = .next { s with output := .none }) ∧
    (0xC000 ≤ a.toNat →
      decode (packTW 0x5#4 (familyCode f) a d) = .ok (.dbgwOutC a d) ∧
      exec (.dbgwOutC a d) s = .next { s with output := .none })

/-- R177: CURRENT_BANK answers the bank mapped now and changes nothing, on every family (the spec's decision D24, log
entry 9). -/
def Obligations.CurrentBankAnswersTheMappedBank : Prop :=
  ∀ (s : State) (f : Family) (a : Addr) (d : Byte),
    decode (packTW 0x6#4 (familyCode f) a d) = .ok .currentBank ∧
    exec .currentBank s = .next { s with output := .bank s.romb }

/-- R178: MAP_INFO answers a free string and changes no state of the block (the spec's decision D28; the free string is
log entry 5), on every family (its decision D24, log entry 9). -/
def Obligations.MapInfoAnswersAFreeString : Prop :=
  ∀ (s : State) (f : Family) (a : Addr) (d : Byte),
    decode (packTW 0x7#4 (familyCode f) a d) = .ok .mapInfo ∧
    exec .mapInfo s = .next { s with output := .info (Config.mapInfoText s.draws), draws := s.draws + 1 }

/-- The debugger's protocol (95_test_vectors.md Q8, R171, R172, R180): SAVE_MAPPING, then any READs, WRITEs and further
SAVE_MAPPINGs, then RESTORE_MAPPING, bring back the ROM bank mapped before the first SAVE_MAPPING, on every family (the
spec's decision D24, log entry 9). -/
def Obligations.AnOverrideAlwaysReturnsTheProgramsBank : Prop :=
  ∀ (s : State) (xs : List Request) (a b : Addr) (d e : Byte), s.saved = none →
    (∀ x ∈ xs, x.op ∈ [0x0#4, 0x1#4, 0x3#4]) →
    s.pending = ⟨0x3#4, a, d⟩ :: xs ++ [⟨0x4#4, b, e⟩] →
    ∃ t, Sys2Proof.core.run (xs.length + 2) s = .next t ∧ t.romb = s.romb ∧ t.saved = none ∧ t.pending = []

/-! ### RESET and power-on -/

/-- R231: RESET maps ROM bank 1 and changes nothing else, on every family (that nothing else changes is the spec's
decision D7, and every family alike its decision D24: log entry 9). -/
def Obligations.ResetMapsBankOneAndNothingElse : Prop :=
  ∀ (s : State) (f : Family) (a : Addr) (d : Byte),
    decode (packTW 0x2#4 (familyCode f) a d) = .ok .reset ∧
    exec .reset s = .next { s with romb := 1#9, output := .none }

/-- R238, which the spec derives: a RESTORE_MAPPING after a RESET under a pending override maps the saved bank again. -/
def Obligations.RestoreAfterResetUndoesTheReset : Prop :=
  ∀ (s : State) (b : BitVec 9) (r q : Request) (rest : List Request), s.saved = some b → r.op = 0x2#4 → q.op = 0x4#4 →
    s.pending = r :: q :: rest →
    (∃ m, Sys2Proof.core.run 1 s = .next m ∧ m.romb = 1#9 ∧ m.saved = some b) ∧
    Sys2Proof.core.run 2 s = .next { s with romb := b, saved := none, pending := rest, output := .none }

/-- R232: the registers, the configuration and the arrays after power-on, at `State.reset` and at every `State.powerOn`
(`RAMB`, `MODE` and `SAVED` by the spec's decisions D4 to D6, log entry 9; that `State.reset` lists
no byte of either array is log entry 3). -/
def Obligations.PowerOnRegistersAreTheSpecs : Prop :=
  (∀ fam bankCount battery ramBankCount rom ram,
    let s := State.powerOn fam bankCount battery ramBankCount rom ram
    s.romb = 1#9 ∧ s.ramb = 0#3 ∧ s.ramEn = 0#1 ∧ s.mode = 0#1 ∧ s.saved = none ∧ s.romOff = 16384 ∧ s.ramOff = 0 ∧
    s.fam = fam ∧ s.bankCount = bankCount ∧ s.battery = battery ∧ s.ramBankCount = ramBankCount ∧ s.rom = rom ∧
    s.ram = ram) ∧
  ∃ fam bankCount battery ramBankCount, State.reset = State.powerOn fam bankCount battery ramBankCount [] []

/-! ### The whole machine -/

/-- R28: no transaction but DEBUG_WRITE changes a ROM byte, and a DEBUG_WRITE changes no register. -/
def Obligations.OnlyDebugWriteChangesRom : Prop :=
  ∀ (s t : State) (r : Request) (rest : List Request), s.pending = r :: rest → step s = .next t →
    (r.op ≠ 0x5#4 → t.rom = s.rom) ∧
    (r.op = 0x5#4 → { t with rom := s.rom, ram := s.ram } = { s with pending := rest, output := .none })

/-- R220: the CPU port (READ and WRITE) can change `ROMB`, `RAMB`, `RAM_EN`, `MODE` and RAM bytes, and never `SAVED`, a
ROM byte or the configuration. -/
def Obligations.TheCpuPortCannotReachSavedOrRom : Prop :=
  ∀ (s t : State) (r : Request) (rest : List Request), s.pending = r :: rest → mayIssue .cpu r.op = true →
    step s = .next t →
    { t with
      romb := s.romb, ramb := s.ramb, ramEn := s.ramEn, mode := s.mode, ram := s.ram, output := s.output,
      draws := s.draws } = { s with pending := rest }

/-- The writers of each register (R21 to R25): `RAM_EN` and `MODE` change only by MBC1 WRITEs below 0x2000 and in
0x6000–0x7FFF, `RAMB` only by WRITEs in 0x4000–0x5FFF on MBC1 in large-RAM mode or on MBC5, `ROMB` only by RESET,
RESTORE_MAPPING and the bank-select windows (0x2000–0x3FFF on MBC5, the same with address bit 8 set on MBC2, and on
MBC1 the same or 0x4000–0x5FFF in large-ROM mode), and `SAVED` only by a SAVE_MAPPING with nothing saved and a
RESTORE_MAPPING with a bank saved. That no MBC2 or MBC5 window writes `RAM_EN` is the spec's decisions D8 and D9 (log
entry 9). -/
def Obligations.EachRegisterHasOnlyItsNamedWriters : Prop :=
  ∀ (s t : State) (r : Request) (rest : List Request), s.pending = r :: rest → step s = .next t →
    (t.ramEn ≠ s.ramEn → r.op = 0x1#4 ∧ s.fam = .mbc1 ∧ r.addr.toNat < 0x2000) ∧
    (t.mode ≠ s.mode → r.op = 0x1#4 ∧ s.fam = .mbc1 ∧ 0x6000 ≤ r.addr.toNat ∧ r.addr.toNat < 0x8000) ∧
    (t.ramb ≠ s.ramb → r.op = 0x1#4 ∧ 0x4000 ≤ r.addr.toNat ∧ r.addr.toNat < 0x6000 ∧
      (s.fam = .mbc5 ∨ (s.fam = .mbc1 ∧ s.mode = 1#1))) ∧
    (t.romb ≠ s.romb → r.op = 0x2#4 ∨ (r.op = 0x4#4 ∧ s.saved ≠ none) ∨
      (r.op = 0x1#4 ∧ 0x2000 ≤ r.addr.toNat ∧
        ((s.fam = .mbc5 ∧ r.addr.toNat < 0x4000) ∨
          (s.fam = .mbc2 ∧ r.addr.toNat < 0x4000 ∧ r.addr.toNat / 256 % 2 = 1) ∨
          (s.fam = .mbc1 ∧ (r.addr.toNat < 0x4000 ∨ (r.addr.toNat < 0x6000 ∧ s.mode = 0#1)))))) ∧
    (t.saved ≠ s.saved → (r.op = 0x3#4 ∧ s.saved = none) ∨ (r.op = 0x4#4 ∧ s.saved ≠ none))

/-- The configuration is constant for the life of the block (R6, R7): every step keeps it. -/
def Obligations.TheConfigurationNeverChanges : Prop :=
  ∀ s t : State, step s = .next t →
    t.fam = s.fam ∧ t.bankCount = s.bankCount ∧ t.battery = s.battery ∧ t.ramBankCount = s.ramBankCount

/-- R33, which the spec derives: every step of a block keeps the register invariants of its family and the form of its
arrays. -/
def Obligations.EveryStepKeepsTheBlockInvariant : Prop :=
  ∀ s t : State, BlockInv s → step s = .next t → BlockInv t

/-- The block invariant holds at the power-on state (its configuration and arrays are log entries 2 and 3). -/
def Obligations.TheBlockInvariantHoldsAtReset : Prop := BlockInv State.reset

/-! ### Translation -/

/-- R56, R57, R63: in their windows the offsets are the concatenations `{ROMB, addr[13:0]}` and `{RAMB, addr[12:0]}`,
below 2^23 and 2^16; the RAM offset is `RAM_OFF + (addr − 0xA000)`. -/
def Obligations.TranslatedOffsetsAreConcatenations : Prop :=
  (∀ (romb : BitVec 9) (a : Addr), 0x4000 ≤ a.toNat → a.toNat < 0x8000 →
    romOffsetX romb a = (romb ++ a.extractLsb' 0 14).toNat ∧ romOffsetX romb a < 2 ^ 23) ∧
  (∀ (ramb : BitVec 3) (a : Addr), 0xA000 ≤ a.toNat → a.toNat < 0xC000 →
    ramOffset ramb a = (ramb ++ a.extractLsb' 0 13).toNat ∧
    ramOffset ramb a = ramb.toNat * 8192 + (a.toNat - 0xA000) ∧ ramOffset ramb a < 2 ^ 16)

/-- R60, which the spec derives: the fixed and the switched window name one byte only when `ROMB` is 0, and in two
states of the bank register the switched window names one byte only for one bank and one address; the same for RAM. -/
def Obligations.WindowsAliasOnlyThroughBankZero : Prop :=
  (∀ (romb : BitVec 9) (a b : Addr), a.toNat < 0x4000 → 0x4000 ≤ b.toNat → b.toNat < 0x8000 →
    (romOffset0 a = romOffsetX romb b ↔ romb = 0#9 ∧ b.toNat = a.toNat + 0x4000)) ∧
  (∀ (k l : BitVec 9) (a b : Addr), 0x4000 ≤ a.toNat → a.toNat < 0x8000 → 0x4000 ≤ b.toNat → b.toNat < 0x8000 →
    romOffsetX k a = romOffsetX l b → k = l ∧ a = b) ∧
  (∀ (k l : BitVec 3) (a b : Addr), 0xA000 ≤ a.toNat → a.toNat < 0xC000 → 0xA000 ≤ b.toNat → b.toNat < 0xC000 →
    ramOffset k a = ramOffset l b → k = l ∧ a = b)

/-! ### Load time -/

/-- R191: the size table. -/
def Obligations.SizeCodesGiveTheTablesBankCounts : Prop :=
  ∀ p : LoadParams, p.Legal →
    (bankCountOf p 0#8 = some 2 ∧ bankCountOf p 1#8 = some 4 ∧ bankCountOf p 2#8 = some 8 ∧ bankCountOf p 3#8 = some 16 ∧
      bankCountOf p 4#8 = some 32 ∧ bankCountOf p 5#8 = some 64 ∧ bankCountOf p 6#8 = some 128 ∧
      bankCountOf p 7#8 = some 256) ∧
    bankCountOf p p.oversize72 = some 72 ∧ bankCountOf p p.oversize80 = some 80 ∧ bankCountOf p p.oversize96 = some 96 ∧
    ∀ c : Byte, 8 ≤ c.toNat → c ∉ [p.oversize72, p.oversize80, p.oversize96] → bankCountOf p c = none

/-- R211, R212: an image too short for a header, and an unknown ROM size code, end the load and no block is created. -/
def Obligations.FatalLoadsCreateNoBlock : Prop :=
  ∀ (p : LoadParams) (attempt : Nat) (image : List Byte) (store : Store),
    (image.length < 16384 → load p attempt image store = .fatal .imageTooShort) ∧
    (16384 ≤ image.length → bankCountOf p (imageByte image (p.offType + 1)) = none →
      load p attempt image store = .fatal (.unknownRomSize (imageByte image (p.offType + 1))))

/-- R230: a load of an image of the right length gives the power-on state of the header's configuration, with the image
as ROM; RAM is zero but for the persisted prefix (R197), and a bad checksum or a failed persistence load (a missing, short
or unwritable store, R214) is reported and stops nothing. The order of the steps is the spec's decision D25; that an
unwritable store of full length is read like any other is log entry 14. -/
def Obligations.LoadGivesThePowerOnState : Prop :=
  ∀ (p : LoadParams) (attempt n : Nat) (image : List Byte) (store : Store), 1 ≤ n → image.length = 16384 * n →
    bankCountOf p (imageByte image (p.offType + 1)) = some n →
    ∃ s reports, load p attempt image store = .loaded s reports ∧
      s = State.powerOn (familyOfType (cartTypeOf p (imageByte image p.offType))) n
        (batteryOfType (cartTypeOf p (imageByte image p.offType)))
        (if imageByte image p.offRamSize = 0x03#8 then 4 else 1) s.rom s.ram ∧
      (∀ i, s.romRead i = imageByte image i) ∧
      (∀ i, persistedLength s.fam s.ramBankCount ≤ i → s.ramRead i = 0#8) ∧
      (∀ i, s.battery = false ∨ store = .missing → s.ramRead i = 0#8) ∧
      (∀ bytes, s.battery = true → store = .present bytes ∨ store = .unwritable bytes →
        persistedLength s.fam s.ramBankCount ≤ bytes.length →
        ∀ i, i < persistedLength s.fam s.ramBankCount → s.ramRead i = imageByte bytes i) ∧
      (.checksumMismatch ∈ reports ↔ checksumValid p image = false) ∧
      (.persistLoadFailed ∈ reports ↔ s.battery = true ∧
        (store = .missing ∨ (∃ bytes, store = .unwritable bytes) ∨
          ∃ bytes, store = .present bytes ∧ bytes.length < persistedLength s.fam s.ramBankCount))

/-- The block a load creates meets the block invariant (R33's base case at LOAD, R8, R9, R11). -/
def Obligations.LoadedBlocksMeetTheInvariant : Prop :=
  ∀ (p : LoadParams) (attempt : Nat) (image : List Byte) (store : Store) (s : State) (reports : List Report),
    load p attempt image store = .loaded s reports → BlockInv s

/-- R195's property, whose second half the spec derives: changing any single summed byte of an image whose checksum is
valid makes it invalid. -/
def Obligations.ChangingOneByteBreaksTheChecksum : Prop :=
  ∀ (p : LoadParams) (image : List Byte) (k : Nat) (b : Byte), checksumValid p image = true → k < image.length →
    k ≠ p.offChecksum → k ≠ p.offChecksum + 1 → image.getD k 0#8 ≠ b → checksumValid p (image.set k b) = false

/-- R198's property and R225: a battery-backed block detached, and a fresh one loaded from the same image and the store
left behind, has the same RAM bytes in the persisted range, zeros beyond it, the image's ROM bytes whatever DEBUG_WRITE
did to the old block's, and power-on registers (`RAMB`, `MODE` and `SAVED` by the spec's decisions D4 to D6, log entry
9). -/
def Obligations.PersistedRamSurvivesAPowerCycle : Prop :=
  ∀ (p : LoadParams) (m n k : Nat) (image : List Byte) (store : Store) (s₀ s : State) (reports : List Report),
    load p m image store = .loaded s₀ reports → s₀.battery = true →
    s.fam = s₀.fam → s.battery = s₀.battery → s.ramBankCount = s₀.ramBankCount →
    ∃ t reports', load p n image (storeAfter k store (detach s true)) = .loaded t reports' ∧
      (∀ i, t.ramRead i = if i < persistedLength s.fam s.ramBankCount then s.ramRead i else 0#8) ∧
      (∀ i, t.romRead i = imageByte image i) ∧
      t.romb = 1#9 ∧ t.ramb = 0#3 ∧ t.ramEn = 0#1 ∧ t.mode = 0#1 ∧ t.saved = none ∧
      .persistLoadFailed ∉ reports'
end

