-- ==== Sys2Proof/Laws/Decode.lean ====
section
/-! SUPPORT. The fields of a packed word, the family codes, and the slices and windows as address ranges. -/

namespace Sys2Proof

open Sys2Proof.Machine

variable (op fam : BitVec 4) (a : Addr) (d : Byte)

theorem packTW_toNat :
    (packTW op fam a d).toNat = op.toNat * 2 ^ 28 + fam.toNat * 2 ^ 24 + a.toNat * 2 ^ 8 + d.toNat := by
  have h1 := op.isLt
  have h2 := fam.isLt
  have h3 := a.isLt
  have h4 := d.isLt
  simp only [packTW, BitVec.toNat_append]
  rw [← Nat.shiftLeft_add_eq_or_of_lt h2, ← Nat.shiftLeft_add_eq_or_of_lt h3, ← Nat.shiftLeft_add_eq_or_of_lt h4]
  simp only [Nat.shiftLeft_eq]
  omega

@[simp] theorem opOf_packTW : opOf (packTW op fam a d) = op := by
  apply BitVec.eq_of_toNat_eq
  have h1 := op.isLt
  have h2 := fam.isLt
  have h3 := a.isLt
  have h4 := d.isLt
  simp only [opOf, BitVec.extractLsb'_toNat, packTW_toNat, Nat.shiftRight_eq_div_pow]
  omega

@[simp] theorem famOf_packTW : famOf (packTW op fam a d) = fam := by
  apply BitVec.eq_of_toNat_eq
  have h1 := op.isLt
  have h2 := fam.isLt
  have h3 := a.isLt
  have h4 := d.isLt
  simp only [famOf, BitVec.extractLsb'_toNat, packTW_toNat, Nat.shiftRight_eq_div_pow]
  omega

@[simp] theorem addrOf_packTW : addrOf (packTW op fam a d) = a := by
  apply BitVec.eq_of_toNat_eq
  have h1 := op.isLt
  have h2 := fam.isLt
  have h3 := a.isLt
  have h4 := d.isLt
  simp only [addrOf, BitVec.extractLsb'_toNat, packTW_toNat, Nat.shiftRight_eq_div_pow]
  omega

@[simp] theorem dataOf_packTW : dataOf (packTW op fam a d) = d := by
  apply BitVec.eq_of_toNat_eq
  have h1 := op.isLt
  have h2 := fam.isLt
  have h3 := a.isLt
  have h4 := d.isLt
  simp only [dataOf, BitVec.extractLsb'_toNat, packTW_toNat, Nat.shiftRight_eq_div_pow]
  omega

/-- A word is the four fields the decoder takes from it. -/
theorem packTW_fields (w : TW) : packTW (opOf w) (famOf w) (addrOf w) (dataOf w) = w := by
  apply BitVec.eq_of_toNat_eq
  have h := w.isLt
  simp only [packTW_toNat, opOf, famOf, addrOf, dataOf, BitVec.extractLsb'_toNat, Nat.shiftRight_eq_div_pow]
  omega

@[simp] theorem familyOfCode_familyCode (f : Family) : familyOfCode (familyCode f) = some f := by
  cases f <;> rfl

/-- The decoder's outcome on a packed word depends on its fields alone. -/
theorem decode_packTW (f : Family) : decode (packTW op (familyCode f) a d) = decodeFields op f a d := by
  simp [decode]

/-- A slice is 8 KiB of the CPU space. -/
theorem sliceOf_eq_iff :
    (sliceOf a = .s0 ↔ a.toNat < 0x2000) ∧
    (sliceOf a = .s1 ↔ 0x2000 ≤ a.toNat ∧ a.toNat < 0x4000) ∧
    (sliceOf a = .s2 ↔ 0x4000 ≤ a.toNat ∧ a.toNat < 0x6000) ∧
    (sliceOf a = .s3 ↔ 0x6000 ≤ a.toNat ∧ a.toNat < 0x8000) ∧
    (sliceOf a = .s4 ↔ 0x8000 ≤ a.toNat ∧ a.toNat < 0xA000) ∧
    (sliceOf a = .s5 ↔ 0xA000 ≤ a.toNat ∧ a.toNat < 0xC000) ∧
    (sliceOf a = .s6 ↔ 0xC000 ≤ a.toNat ∧ a.toNat < 0xE000) ∧
    (sliceOf a = .s7 ↔ 0xE000 ≤ a.toNat) := by
  have h : a.toNat < 65536 := a.isLt
  have e : (a.extractLsb' 13 3).toNat = a.toNat / 8192 := by
    simp only [BitVec.extractLsb'_toNat, Nat.shiftRight_eq_div_pow]
    omega
  have k : a.toNat / 8192 = 0 ∨ a.toNat / 8192 = 1 ∨ a.toNat / 8192 = 2 ∨ a.toNat / 8192 = 3 ∨ a.toNat / 8192 = 4 ∨
      a.toNat / 8192 = 5 ∨ a.toNat / 8192 = 6 ∨ a.toNat / 8192 = 7 := by omega
  rcases k with k | k | k | k | k | k | k | k <;>
    (simp only [sliceOf, e, k]; refine ⟨?_, ?_, ?_, ?_, ?_, ?_, ?_, ?_⟩ <;> simp <;> omega)

/-- What READ and DEBUG_WRITE see, by address (R54). -/
theorem windowOf_eq_iff :
    (windowOf a = .rom0 ↔ a.toNat < 0x4000) ∧
    (windowOf a = .romX ↔ 0x4000 ≤ a.toNat ∧ a.toNat < 0x8000) ∧
    (windowOf a = .out8 ↔ 0x8000 ≤ a.toNat ∧ a.toNat < 0xA000) ∧
    (windowOf a = .xram ↔ 0xA000 ≤ a.toNat ∧ a.toNat < 0xC000) ∧
    (windowOf a = .outC ↔ 0xC000 ≤ a.toNat) := by
  obtain ⟨h0, h1, h2, h3, h4, h5, h6, h7⟩ := sliceOf_eq_iff a
  have h := a.isLt
  unfold windowOf
  split <;> simp_all <;> omega

theorem addrBit12_iff : addrBit12 a = true ↔ a.toNat / 0x1000 % 2 = 1 := by
  simp [addrBit12, BitVec.getLsbD, Nat.testBit_eq_decide_div_mod_eq]

theorem addrBit8_iff : addrBit8 a = true ↔ a.toNat / 0x100 % 2 = 1 := by
  simp [addrBit8, BitVec.getLsbD, Nat.testBit_eq_decide_div_mod_eq]

/-- An operation code of 0x8 or more is no transaction, whatever the other fields. -/
theorem decodeFields_reserved (f : Family) (h : 8 ≤ op.toNat) : decodeFields op f a d = .error (.reservedOperation op) := by
  unfold decodeFields
  split <;> first | rfl | omega

/-- The five codes that name a family, and no others. -/
theorem familyOfCode_eq_none_iff :
    familyOfCode fam = none ↔ fam ≠ 0x0#4 ∧ fam ≠ 0x1#4 ∧ fam ≠ 0x2#4 ∧ fam ≠ 0x5#4 ∧ fam ≠ 0xF#4 := by
  revert fam
  decide

/-- A code that names a family is that family's code. -/
theorem familyCode_of_familyOfCode (f : Family) (h : familyOfCode fam = some f) : familyCode f = fam := by
  revert fam f
  decide

/-- A request's word is decoded by its own fields and the block's strap. -/
theorem decode_word (r : Request) (f : Family) : decode (r.word f) = decodeFields r.op f r.addr r.data :=
  decode_packTW r.op r.addr r.data f

end Sys2Proof
end

