-- ==== Sys2Proof/Laws/Memory.lean ====
section
/-! SUPPORT. The laws of the byte arrays: read after write, the frame of a write, the canonical form and the bound kept
by every operation. -/

namespace Sys2Proof.Machine

theorem Memory.read_of_absent (m : Memory) (off : Nat) (h : ∀ c ∈ m, c.1 ≠ off) : Memory.read m off = unlistedByte := by
  induction m with
  | nil => rfl
  | cons c t ih =>
    obtain ⟨k, w⟩ := c
    have hk : k ≠ off := h (k, w) (by simp)
    simp only [Memory.read, hk, if_false]
    exact ih (fun d hd => h d (by simp [hd]))

theorem Memory.read_filter_ne (m : Memory) (off i : Nat) :
    Memory.read (m.filter (fun c => c.1 != off)) i = if i = off then unlistedByte else Memory.read m i := by
  induction m with
  | nil => simp [Memory.read]
  | cons c t ih =>
    obtain ⟨k, w⟩ := c
    by_cases hk : k = off
    · subst hk
      simp only [List.filter, bne_self_eq_false, ih, Memory.read]
      by_cases hi : i = k
      · simp [hi]
      · simp [hi, Ne.symm hi]
    · have : (k != off) = true := by simpa using hk
      simp only [List.filter, this, Memory.read, ih]
      by_cases hi : k = i
      · subst hi; simp [hk]
      · simp [hi]

theorem Memory.read_place (m : Memory) (off i : Nat) (v : Byte) (h : ∀ c ∈ m, c.1 ≠ off) :
    Memory.read (Memory.place m off v) i = if i = off then v else Memory.read m i := by
  induction m with
  | nil => simp [Memory.place, Memory.read, eq_comm]
  | cons c t ih =>
    obtain ⟨k, w⟩ := c
    have hk : k ≠ off := h (k, w) (by simp)
    have ih := ih (fun d hd => h d (by simp [hd]))
    simp only [Memory.place]
    split
    · by_cases hi : i = off
      · simp [Memory.read, hi]
      · simp [Memory.read, hi, Ne.symm hi]
    · simp only [Memory.read, ih]
      by_cases hi : k = i
      · subst hi; simp [hk]
      · simp [hi]

theorem Memory.filter_ne_absent (m : Memory) (off : Nat) : ∀ c ∈ m.filter (fun c => c.1 != off), c.1 ≠ off := by
  intro c hc
  simpa using (List.mem_filter.1 hc).2

/-- Read after write, at the offset written and at every other. -/
@[simp] theorem Memory.read_write (m : Memory) (off i : Nat) (v : Byte) :
    Memory.read (Memory.write m off v) i = if i = off then v else Memory.read m i := by
  unfold Memory.write
  split
  · next h => rw [Memory.read_filter_ne, h]
  · rw [Memory.read_place _ _ _ _ (Memory.filter_ne_absent m off), Memory.read_filter_ne]
    split <;> rfl

theorem Memory.mem_place (m : Memory) (off : Nat) (v : Byte) (c : Host.Cell) :
    c ∈ Memory.place m off v ↔ c = (off, v) ∨ c ∈ m := by
  induction m with
  | nil => simp [Memory.place]
  | cons d t ih =>
    simp only [Memory.place]
    split
    · simp
    · simp only [List.mem_cons, ih]; tauto

theorem Memory.place_rising (m : Memory) (off : Nat) (v : Byte) (hm : m.Pairwise (fun c d => c.1 < d.1))
    (h : ∀ c ∈ m, c.1 ≠ off) : (Memory.place m off v).Pairwise (fun c d => c.1 < d.1) := by
  induction m with
  | nil => simp [Memory.place]
  | cons d t ih =>
    rw [List.pairwise_cons] at hm
    have hd : d.1 ≠ off := h d (by simp)
    simp only [Memory.place]
    split
    · next hlt =>
      rw [List.pairwise_cons, List.pairwise_cons]
      refine ⟨fun c hc => ?_, hm⟩
      rcases List.mem_cons.1 hc with rfl | hc
      · exact hlt
      · exact Nat.lt_trans hlt (hm.1 c hc)
    · next hge =>
      rw [List.pairwise_cons]
      refine ⟨fun c hc => ?_, ih hm.2 (fun c hc => h c (by simp [hc]))⟩
      rcases (Memory.mem_place t off v c).1 hc with rfl | hc
      · show d.1 < off
        omega
      · exact hm.1 c hc

/-- A write keeps the canonical form. -/
theorem Memory.wf_write (m : Memory) (off : Nat) (v : Byte) (h : m.wf) : (Memory.write m off v).wf := by
  have hf : Memory.wf (m.filter (fun c => c.1 != off)) :=
    ⟨h.1.filter _, fun c hc => h.2 c (List.mem_filter.1 hc).1⟩
  unfold Memory.write
  split
  · exact hf
  · next hv =>
    refine ⟨Memory.place_rising _ _ _ hf.1 (Memory.filter_ne_absent m off), fun c hc => ?_⟩
    rcases (Memory.mem_place _ off v c).1 hc with rfl | hc
    · exact hv
    · exact hf.2 c hc

/-- A write inside an array stays inside it. -/
theorem Memory.within_write (m : Memory) (off len : Nat) (v : Byte) (h : m.within len) (ho : off < len) :
    (Memory.write m off v).within len := by
  have hf : Memory.within (m.filter (fun c => c.1 != off)) len := fun c hc => h c (List.mem_filter.1 hc).1
  unfold Memory.write
  split
  · exact hf
  · intro c hc
    rcases (Memory.mem_place _ off v c).1 hc with rfl | hc
    · exact ho
    · exact hf c hc

theorem Memory.mem_ofBytes (bytes : List Byte) (off : Nat) (c : Host.Cell) (h : c ∈ Memory.ofBytes off bytes) :
    off ≤ c.1 ∧ c.1 < off + bytes.length ∧ c.2 ≠ unlistedByte := by
  induction bytes generalizing off with
  | nil => simp [Memory.ofBytes] at h
  | cons b t ih =>
    simp only [Memory.ofBytes] at h
    split at h
    · obtain ⟨h1, h2, h3⟩ := ih (off + 1) h
      simp only [List.length_cons]
      exact ⟨by omega, by omega, h3⟩
    · next hb =>
      rcases List.mem_cons.1 h with rfl | h
      · simp [hb]
      · obtain ⟨h1, h2, h3⟩ := ih (off + 1) h
        simp only [List.length_cons]
        exact ⟨by omega, by omega, h3⟩

/-- An array laid out from bytes is canonical. -/
theorem Memory.wf_ofBytes (bytes : List Byte) (off : Nat) : (Memory.ofBytes off bytes).wf := by
  refine ⟨?_, fun c hc => (Memory.mem_ofBytes bytes off c hc).2.2⟩
  induction bytes generalizing off with
  | nil => simp [Memory.ofBytes]
  | cons b t ih =>
    simp only [Memory.ofBytes]
    split
    · exact ih (off + 1)
    · exact List.pairwise_cons.2 ⟨fun c hc => (Memory.mem_ofBytes t (off + 1) c hc).1, ih (off + 1)⟩

/-- An array laid out from bytes reads back as those bytes, and as unlisted bytes elsewhere. -/
theorem Memory.read_ofBytes (bytes : List Byte) (off i : Nat) :
    Memory.read (Memory.ofBytes off bytes) (off + i) = bytes.getD i unlistedByte := by
  induction bytes generalizing off i with
  | nil => simp [Memory.ofBytes, Memory.read]
  | cons b t ih =>
    cases i with
    | zero =>
      simp only [Memory.ofBytes]
      split
      · next hb =>
        rw [Memory.read_of_absent _ _ fun c hc => by have := (Memory.mem_ofBytes t (off + 1) c hc).1; omega]
        simp [hb]
      · simp [Memory.read]
    | succ i =>
      have e : off + (i + 1) = off + 1 + i := by omega
      simp only [Memory.ofBytes]
      split
      · rw [e, ih]; simp
      · rw [e]
        have : off ≠ off + 1 + i := by omega
        simp [Memory.read, this, ih]

@[simp] theorem State.romWrite_romRead (s : State) (off i : Nat) (v : Byte) :
    (s.romWrite off v).romRead i = if i = off then v else s.romRead i := Memory.read_write s.rom off i v

@[simp] theorem State.romWrite_ramRead (s : State) (off i : Nat) (v : Byte) :
    (s.romWrite off v).ramRead i = s.ramRead i := rfl

@[simp] theorem State.ramWrite_ramRead (s : State) (off i : Nat) (v : Byte) :
    (s.ramWrite off v).ramRead i = if i = off then v else s.ramRead i := Memory.read_write s.ram off i v

@[simp] theorem State.ramWrite_romRead (s : State) (off i : Nat) (v : Byte) :
    (s.ramWrite off v).romRead i = s.romRead i := rfl

end Sys2Proof.Machine
end

