-- ==== Sys2Proof/Laws/Load.lean ====
section
/-! SUPPORT. What LOAD, DETACH and their parts can answer. -/

namespace Sys2Proof.Machine

theorem read_ofBytes_image (bytes : List Byte) (i : Nat) :
    Memory.read (Memory.ofBytes 0 bytes) i = imageByte bytes i := by
  have h := Memory.read_ofBytes bytes 0 i
  rw [Nat.zero_add] at h
  exact h

@[simp] theorem imageByte_of_le (bytes : List Byte) (i : Nat) (h : bytes.length ≤ i) : imageByte bytes i = 0x00#8 := by
  simp [imageByte, List.getD_eq_getElem?_getD, h]

@[simp] theorem firstBytes_length (m : Memory) (n : Nat) : (m.firstBytes n).length = n := by
  simp [Memory.firstBytes]

@[simp] theorem imageByte_firstBytes (m : Memory) (n i : Nat) (h : i < n) :
    imageByte (m.firstBytes n) i = Memory.read m i := by
  simp [imageByte, Memory.firstBytes, List.getD_eq_getElem?_getD, h]

theorem imageByte_take (bytes : List Byte) (n i : Nat) (h : i < n) :
    imageByte (bytes.take n) i = imageByte bytes i := by
  simp [imageByte, List.getD_eq_getElem?_getD, h]

/-- What RAM can be after a load: nothing listed, the first `n` bytes of a store that has them, or free bytes (R197). -/
theorem ramInit_cases (battery : Bool) (n attempt : Nat) (store : Store) :
    ((battery = false ∨ store = .missing) ∧ ramInit battery n attempt store = []) ∨
    (∃ bytes, battery = true ∧ storeBytes store = some bytes ∧ n ≤ bytes.length ∧
      ramInit battery n attempt store = Memory.ofBytes 0 (bytes.take n)) ∨
    (∃ bytes, battery = true ∧ storeBytes store = some bytes ∧ bytes.length < n ∧
      ramInit battery n attempt store = shortStorePrefix n attempt) := by
  have hb : ∀ bytes, storeBytes store = some bytes → ramInit true n attempt store =
      if n ≤ bytes.length then Memory.ofBytes 0 (bytes.take n) else shortStorePrefix n attempt := by
    intro bytes h
    unfold ramInit
    rw [if_pos rfl, h]
  cases battery with
  | false => exact .inl ⟨.inl rfl, rfl⟩
  | true =>
    cases hs : storeBytes store with
    | none =>
      cases store with
      | missing => exact .inl ⟨.inr rfl, rfl⟩
      | present bytes => cases hs
      | unwritable bytes => cases hs
    | some bytes =>
      by_cases hn : n ≤ bytes.length
      · exact .inr (.inl ⟨bytes, rfl, rfl, hn, (hb bytes hs).trans (if_pos hn)⟩)
      · exact .inr (.inr ⟨bytes, rfl, rfl, Nat.lt_of_not_le hn, (hb bytes hs).trans (if_neg hn)⟩)

/-- RAM is zero from the persisted length on, whatever the battery and the store (R197). -/
theorem ramInit_read_beyond (battery : Bool) (n attempt : Nat) (store : Store) (i : Nat) (h : n ≤ i) :
    Memory.read (ramInit battery n attempt store) i = 0x00#8 := by
  obtain ⟨-, e⟩ | ⟨bytes, -, -, -, e⟩ | ⟨bytes, -, -, -, e⟩ := ramInit_cases battery n attempt store <;> rw [e]
  · rfl
  · rw [read_ofBytes_image, imageByte_of_le]
    exact (List.length_take_le n bytes).trans h
  · unfold shortStorePrefix
    rw [read_ofBytes_image, imageByte_of_le]
    simpa using h

/-- Below the persisted length RAM is the store's where the store has enough bytes, writable or not (R197). -/
theorem ramInit_read_store (n attempt i : Nat) (store : Store) (bytes : List Byte) (hs : storeBytes store = some bytes)
    (hn : n ≤ bytes.length) (h : i < n) : Memory.read (ramInit true n attempt store) i = imageByte bytes i := by
  unfold ramInit
  rw [if_pos rfl, hs]
  dsimp only
  rw [if_pos hn, read_ofBytes_image, imageByte_take _ _ _ h]

/-- Without a battery, and with no store, no byte of RAM is listed (R197). -/
theorem ramInit_eq_nil (battery : Bool) (n attempt : Nat) (store : Store) (h : battery = false ∨ store = .missing) :
    ramInit battery n attempt store = [] := by
  rcases h with rfl | rfl
  · rfl
  · cases battery <;> rfl

/-- RAM after a load is canonical and inside the persisted range. -/
theorem ramInit_form (battery : Bool) (n attempt : Nat) (store : Store) :
    (ramInit battery n attempt store).wf ∧ (ramInit battery n attempt store).within n := by
  have hb : ∀ bytes : List Byte, bytes.length ≤ n →
      (Memory.ofBytes 0 bytes).wf ∧ (Memory.ofBytes 0 bytes).within n := fun bytes hl =>
    ⟨Memory.wf_ofBytes bytes 0, fun c hc => by have := Memory.mem_ofBytes bytes 0 c hc; omega⟩
  obtain ⟨-, e⟩ | ⟨bytes, -, -, -, e⟩ | ⟨bytes, -, -, -, e⟩ := ramInit_cases battery n attempt store <;> rw [e]
  · simp [Memory.wf, Memory.within]
  · exact hb _ (List.length_take_le n bytes)
  · exact hb _ (by simp)

/-- A persistence load fails on a battery-backed block whose store is missing, unwritable or short (R214). -/
theorem persistLoadFails_iff (battery : Bool) (n : Nat) (store : Store) :
    persistLoadFails battery n store = true ↔
      battery = true ∧ (store = .missing ∨ (∃ bytes, store = .unwritable bytes) ∨
        ∃ bytes, store = .present bytes ∧ bytes.length < n) := by
  cases store <;> simp [persistLoadFails]

/-- A load that creates a block ran its steps 4 to 8 on an image of the right length (R230). -/
theorem load_loaded {p : LoadParams} {attempt : Nat} {image : List Byte} {store : Store} {s : State}
    {reports : List Report} (h : load p attempt image store = .loaded s reports) :
    16384 ≤ image.length ∧ ∃ n, bankCountOf p (imageByte image (offRomSize p)) = some n ∧ image.length = 16384 * n ∧
      loadBlock p attempt n image store = .loaded s reports := by
  unfold load at h
  split at h
  · cases h
  · next hl =>
    split at h
    · cases h
    · next n hn =>
      split at h
      · next hlen => exact ⟨Nat.le_of_not_lt hl, n, hn, hlen, h⟩
      · cases h

/-- An image of the right length loads. -/
theorem load_eq_loadBlock {p : LoadParams} {n : Nat} {image : List Byte} (attempt : Nat) (store : Store) (h1 : 1 ≤ n)
    (h2 : image.length = 16384 * n) (h3 : bankCountOf p (imageByte image (offRomSize p)) = some n) :
    load p attempt image store = loadBlock p attempt n image store := by
  unfold load
  rw [if_neg (by omega), h3]
  dsimp only
  rw [if_pos h2]

/-- A writable store holds exactly the persisted bytes after the DETACH of a battery-backed block (R198). -/
theorem storeAfter_detach (k : Nat) (store : Store) (s : State) (h : s.battery = true) :
    storeAfter k store (detach s true) = .present (s.ram.firstBytes (persistedLength s.fam s.ramBankCount)) := by
  unfold detach
  rw [h]
  rfl

end Sys2Proof.Machine
end

