-- ==== Sys2Proof/Laws/Operands.lean ====
section
/-! SUPPORT. The data fields and the offsets, bit by bit and as numbers. -/

namespace Sys2Proof.Machine

theorem addr_low14 (a : Addr) : (a.extractLsb' 0 14).toNat = a.toNat % 16384 := by
  simp only [BitVec.extractLsb'_toNat, Nat.shiftRight_eq_div_pow]
  omega

theorem addr_low13 (a : Addr) : (a.extractLsb' 0 13).toNat = a.toNat % 8192 := by
  simp only [BitVec.extractLsb'_toNat, Nat.shiftRight_eq_div_pow]
  omega

theorem bank_append14 (b : BitVec 9) (a : Addr) :
    (b ++ a.extractLsb' 0 14).toNat = b.toNat * 16384 + a.toNat % 16384 := by
  rw [BitVec.toNat_append, ← Nat.shiftLeft_add_eq_or_of_lt (BitVec.isLt _), Nat.shiftLeft_eq, addr_low14]

theorem bank_append13 (b : BitVec 3) (a : Addr) :
    (b ++ a.extractLsb' 0 13).toNat = b.toNat * 8192 + a.toNat % 8192 := by
  rw [BitVec.toNat_append, ← Nat.shiftLeft_add_eq_or_of_lt (BitVec.isLt _), Nat.shiftLeft_eq, addr_low13]

/-- The RAM offset is inside the array for every bank and every address. -/
theorem ramOffset_lt (b : BitVec 3) (a : Addr) : ramOffset b a < ramCap := by
  have h := b.isLt
  unfold ramOffset ramCap
  rw [addr_low13]
  omega

theorem romOffset0_eq (a : Addr) : romOffset0 a = a.toNat % 16384 := addr_low14 a

theorem ramOffset_eq (b : BitVec 3) (a : Addr) : ramOffset b a = b.toNat * 8192 + a.toNat % 8192 := by
  unfold ramOffset
  rw [addr_low13]

theorem ramEnableOf_eq (d : Byte) : ramEnableOf d = if d.toNat % 16 = 0xA then 1#1 else 0#1 := by
  revert d
  decide

theorem modeOf_eq (d : Byte) : modeOf d = if d.toNat % 2 = 1 then 1#1 else 0#1 := by
  revert d
  decide

theorem mbc1LowBank_eq (b : BitVec 9) (d : Byte) :
    mbc1LowBank b d =
      0#2 ++ b.extractLsb' 5 2 ++ (if d.extractLsb' 0 5 = 0#5 then 1#5 else d.extractLsb' 0 5) := by
  have hz : (d &&& 0x1F#8 = 0#8) ↔ d.extractLsb' 0 5 = 0#5 := by
    revert d
    decide
  unfold mbc1LowBank forceZeroToOne
  by_cases h : d.extractLsb' 0 5 = 0#5
  · simp only [hz.2 h, h, if_true]
    revert b
    decide
  · simp only [h, if_false, mt hz.1 h]
    apply BitVec.eq_of_getLsbD_eq
    intro i hi
    refine Eq.trans ?_
      (BitVec.getLsbD_append (x := 0#2 ++ b.extractLsb' 5 2) (y := d.extractLsb' 0 5) (i := i)).symm
    rw [BitVec.getLsbD_append (x := 0#2) (y := b.extractLsb' 5 2) (i := i - 5)]
    interval_cases i <;> simp

theorem mbc1HighBank_eq (b : BitVec 9) (d : Byte) :
    mbc1HighBank b d = 0#2 ++ d.extractLsb' 0 2 ++ b.extractLsb' 0 5 := by
  unfold mbc1HighBank
  apply BitVec.eq_of_getLsbD_eq
  intro i hi
  refine Eq.trans ?_ (BitVec.getLsbD_append (x := 0#2 ++ d.extractLsb' 0 2) (y := b.extractLsb' 0 5) (i := i)).symm
  rw [BitVec.getLsbD_append (x := 0#2) (y := d.extractLsb' 0 2) (i := i - 5)]
  interval_cases i <;> simp

theorem mbc1RamBank_eq (d : Byte) : mbc1RamBank d = 0#1 ++ d.extractLsb' 0 2 := by
  revert d
  decide

theorem mbc2Bank_toNat (d : Byte) : (mbc2Bank d).toNat = max (d.toNat % 32) 1 := by
  revert d
  decide

theorem mbc5LowBank_eq (b : BitVec 9) (d : Byte) : mbc5LowBank b d = b.extractLsb' 8 1 ++ d := by
  unfold mbc5LowBank
  apply BitVec.eq_of_getLsbD_eq
  intro i hi
  refine Eq.trans ?_ (BitVec.getLsbD_append (x := b.extractLsb' 8 1) (y := d) (i := i)).symm
  interval_cases i <;> simp

theorem mbc5HighBank_eq (b : BitVec 9) (d : Byte) : mbc5HighBank b d = d.extractLsb' 0 1 ++ b.extractLsb' 0 8 := by
  unfold mbc5HighBank
  apply BitVec.eq_of_getLsbD_eq
  intro i hi
  refine Eq.trans ?_ (BitVec.getLsbD_append (x := d.extractLsb' 0 1) (y := b.extractLsb' 0 8) (i := i)).symm
  interval_cases i <;> simp

theorem mbc5RamBank_eq (d : Byte) : mbc5RamBank d = d.extractLsb' 0 3 := by
  revert d
  decide

end Sys2Proof.Machine
end

