-- ==== Sys2Proof/Laws/State.lean ====
section
/-! SUPPORT. One lemma per field of State per named update, so that no proof unfolds a record update. -/

namespace Sys2Proof.Machine

variable (s : State)

@[simp] theorem State.romWrite_fam (off : Nat) (v : Byte) : (s.romWrite off v).fam = s.fam := rfl
@[simp] theorem State.romWrite_bankCount (off : Nat) (v : Byte) : (s.romWrite off v).bankCount = s.bankCount := rfl
@[simp] theorem State.romWrite_battery (off : Nat) (v : Byte) : (s.romWrite off v).battery = s.battery := rfl
@[simp] theorem State.romWrite_ramBankCount (off : Nat) (v : Byte) : (s.romWrite off v).ramBankCount = s.ramBankCount := rfl
@[simp] theorem State.romWrite_romb (off : Nat) (v : Byte) : (s.romWrite off v).romb = s.romb := rfl
@[simp] theorem State.romWrite_ramb (off : Nat) (v : Byte) : (s.romWrite off v).ramb = s.ramb := rfl
@[simp] theorem State.romWrite_ramEn (off : Nat) (v : Byte) : (s.romWrite off v).ramEn = s.ramEn := rfl
@[simp] theorem State.romWrite_mode (off : Nat) (v : Byte) : (s.romWrite off v).mode = s.mode := rfl
@[simp] theorem State.romWrite_saved (off : Nat) (v : Byte) : (s.romWrite off v).saved = s.saved := rfl
@[simp] theorem State.romWrite_rom (off : Nat) (v : Byte) : (s.romWrite off v).rom = Memory.write s.rom off v := rfl
@[simp] theorem State.romWrite_ram (off : Nat) (v : Byte) : (s.romWrite off v).ram = s.ram := rfl
@[simp] theorem State.romWrite_pending (off : Nat) (v : Byte) : (s.romWrite off v).pending = s.pending := rfl
@[simp] theorem State.romWrite_output (off : Nat) (v : Byte) : (s.romWrite off v).output = s.output := rfl
@[simp] theorem State.romWrite_draws (off : Nat) (v : Byte) : (s.romWrite off v).draws = s.draws := rfl
@[simp] theorem State.romWrite_romLen (off : Nat) (v : Byte) : (s.romWrite off v).romLen = s.romLen := rfl

@[simp] theorem State.ramWrite_fam (off : Nat) (v : Byte) : (s.ramWrite off v).fam = s.fam := rfl
@[simp] theorem State.ramWrite_bankCount (off : Nat) (v : Byte) : (s.ramWrite off v).bankCount = s.bankCount := rfl
@[simp] theorem State.ramWrite_battery (off : Nat) (v : Byte) : (s.ramWrite off v).battery = s.battery := rfl
@[simp] theorem State.ramWrite_ramBankCount (off : Nat) (v : Byte) : (s.ramWrite off v).ramBankCount = s.ramBankCount := rfl
@[simp] theorem State.ramWrite_romb (off : Nat) (v : Byte) : (s.ramWrite off v).romb = s.romb := rfl
@[simp] theorem State.ramWrite_ramb (off : Nat) (v : Byte) : (s.ramWrite off v).ramb = s.ramb := rfl
@[simp] theorem State.ramWrite_ramEn (off : Nat) (v : Byte) : (s.ramWrite off v).ramEn = s.ramEn := rfl
@[simp] theorem State.ramWrite_mode (off : Nat) (v : Byte) : (s.ramWrite off v).mode = s.mode := rfl
@[simp] theorem State.ramWrite_saved (off : Nat) (v : Byte) : (s.ramWrite off v).saved = s.saved := rfl
@[simp] theorem State.ramWrite_rom (off : Nat) (v : Byte) : (s.ramWrite off v).rom = s.rom := rfl
@[simp] theorem State.ramWrite_ram (off : Nat) (v : Byte) : (s.ramWrite off v).ram = Memory.write s.ram off v := rfl
@[simp] theorem State.ramWrite_pending (off : Nat) (v : Byte) : (s.ramWrite off v).pending = s.pending := rfl
@[simp] theorem State.ramWrite_output (off : Nat) (v : Byte) : (s.ramWrite off v).output = s.output := rfl
@[simp] theorem State.ramWrite_draws (off : Nat) (v : Byte) : (s.ramWrite off v).draws = s.draws := rfl
@[simp] theorem State.ramWrite_romLen (off : Nat) (v : Byte) : (s.ramWrite off v).romLen = s.romLen := rfl

@[simp] theorem State.mapRom_fam (b : BitVec 9) : (s.mapRom b).fam = s.fam := rfl
@[simp] theorem State.mapRom_bankCount (b : BitVec 9) : (s.mapRom b).bankCount = s.bankCount := rfl
@[simp] theorem State.mapRom_battery (b : BitVec 9) : (s.mapRom b).battery = s.battery := rfl
@[simp] theorem State.mapRom_ramBankCount (b : BitVec 9) : (s.mapRom b).ramBankCount = s.ramBankCount := rfl
@[simp] theorem State.mapRom_romb (b : BitVec 9) : (s.mapRom b).romb = b := rfl
@[simp] theorem State.mapRom_ramb (b : BitVec 9) : (s.mapRom b).ramb = s.ramb := rfl
@[simp] theorem State.mapRom_ramEn (b : BitVec 9) : (s.mapRom b).ramEn = s.ramEn := rfl
@[simp] theorem State.mapRom_mode (b : BitVec 9) : (s.mapRom b).mode = s.mode := rfl
@[simp] theorem State.mapRom_saved (b : BitVec 9) : (s.mapRom b).saved = s.saved := rfl
@[simp] theorem State.mapRom_rom (b : BitVec 9) : (s.mapRom b).rom = s.rom := rfl
@[simp] theorem State.mapRom_ram (b : BitVec 9) : (s.mapRom b).ram = s.ram := rfl
@[simp] theorem State.mapRom_pending (b : BitVec 9) : (s.mapRom b).pending = s.pending := rfl
@[simp] theorem State.mapRom_output (b : BitVec 9) : (s.mapRom b).output = s.output := rfl
@[simp] theorem State.mapRom_draws (b : BitVec 9) : (s.mapRom b).draws = s.draws := rfl
@[simp] theorem State.mapRom_romLen (b : BitVec 9) : (s.mapRom b).romLen = s.romLen := rfl
@[simp] theorem State.mapRom_romRead (b : BitVec 9) (i : Nat) : (s.mapRom b).romRead i = s.romRead i := rfl
@[simp] theorem State.mapRom_ramRead (b : BitVec 9) (i : Nat) : (s.mapRom b).ramRead i = s.ramRead i := rfl

@[simp] theorem State.mapRam_fam (b : BitVec 3) : (s.mapRam b).fam = s.fam := rfl
@[simp] theorem State.mapRam_bankCount (b : BitVec 3) : (s.mapRam b).bankCount = s.bankCount := rfl
@[simp] theorem State.mapRam_battery (b : BitVec 3) : (s.mapRam b).battery = s.battery := rfl
@[simp] theorem State.mapRam_ramBankCount (b : BitVec 3) : (s.mapRam b).ramBankCount = s.ramBankCount := rfl
@[simp] theorem State.mapRam_romb (b : BitVec 3) : (s.mapRam b).romb = s.romb := rfl
@[simp] theorem State.mapRam_ramb (b : BitVec 3) : (s.mapRam b).ramb = b := rfl
@[simp] theorem State.mapRam_ramEn (b : BitVec 3) : (s.mapRam b).ramEn = s.ramEn := rfl
@[simp] theorem State.mapRam_mode (b : BitVec 3) : (s.mapRam b).mode = s.mode := rfl
@[simp] theorem State.mapRam_saved (b : BitVec 3) : (s.mapRam b).saved = s.saved := rfl
@[simp] theorem State.mapRam_rom (b : BitVec 3) : (s.mapRam b).rom = s.rom := rfl
@[simp] theorem State.mapRam_ram (b : BitVec 3) : (s.mapRam b).ram = s.ram := rfl
@[simp] theorem State.mapRam_pending (b : BitVec 3) : (s.mapRam b).pending = s.pending := rfl
@[simp] theorem State.mapRam_output (b : BitVec 3) : (s.mapRam b).output = s.output := rfl
@[simp] theorem State.mapRam_draws (b : BitVec 3) : (s.mapRam b).draws = s.draws := rfl
@[simp] theorem State.mapRam_romLen (b : BitVec 3) : (s.mapRam b).romLen = s.romLen := rfl
@[simp] theorem State.mapRam_romRead (b : BitVec 3) (i : Nat) : (s.mapRam b).romRead i = s.romRead i := rfl
@[simp] theorem State.mapRam_ramRead (b : BitVec 3) (i : Nat) : (s.mapRam b).ramRead i = s.ramRead i := rfl

@[simp] theorem State.setRamEn_fam (v : BitVec 1) : (s.setRamEn v).fam = s.fam := rfl
@[simp] theorem State.setRamEn_bankCount (v : BitVec 1) : (s.setRamEn v).bankCount = s.bankCount := rfl
@[simp] theorem State.setRamEn_battery (v : BitVec 1) : (s.setRamEn v).battery = s.battery := rfl
@[simp] theorem State.setRamEn_ramBankCount (v : BitVec 1) : (s.setRamEn v).ramBankCount = s.ramBankCount := rfl
@[simp] theorem State.setRamEn_romb (v : BitVec 1) : (s.setRamEn v).romb = s.romb := rfl
@[simp] theorem State.setRamEn_ramb (v : BitVec 1) : (s.setRamEn v).ramb = s.ramb := rfl
@[simp] theorem State.setRamEn_ramEn (v : BitVec 1) : (s.setRamEn v).ramEn = v := rfl
@[simp] theorem State.setRamEn_mode (v : BitVec 1) : (s.setRamEn v).mode = s.mode := rfl
@[simp] theorem State.setRamEn_saved (v : BitVec 1) : (s.setRamEn v).saved = s.saved := rfl
@[simp] theorem State.setRamEn_rom (v : BitVec 1) : (s.setRamEn v).rom = s.rom := rfl
@[simp] theorem State.setRamEn_ram (v : BitVec 1) : (s.setRamEn v).ram = s.ram := rfl
@[simp] theorem State.setRamEn_pending (v : BitVec 1) : (s.setRamEn v).pending = s.pending := rfl
@[simp] theorem State.setRamEn_output (v : BitVec 1) : (s.setRamEn v).output = s.output := rfl
@[simp] theorem State.setRamEn_draws (v : BitVec 1) : (s.setRamEn v).draws = s.draws := rfl
@[simp] theorem State.setRamEn_romLen (v : BitVec 1) : (s.setRamEn v).romLen = s.romLen := rfl
@[simp] theorem State.setRamEn_romRead (v : BitVec 1) (i : Nat) : (s.setRamEn v).romRead i = s.romRead i := rfl
@[simp] theorem State.setRamEn_ramRead (v : BitVec 1) (i : Nat) : (s.setRamEn v).ramRead i = s.ramRead i := rfl

@[simp] theorem State.setMode_fam (v : BitVec 1) : (s.setMode v).fam = s.fam := rfl
@[simp] theorem State.setMode_bankCount (v : BitVec 1) : (s.setMode v).bankCount = s.bankCount := rfl
@[simp] theorem State.setMode_battery (v : BitVec 1) : (s.setMode v).battery = s.battery := rfl
@[simp] theorem State.setMode_ramBankCount (v : BitVec 1) : (s.setMode v).ramBankCount = s.ramBankCount := rfl
@[simp] theorem State.setMode_romb (v : BitVec 1) : (s.setMode v).romb = s.romb := rfl
@[simp] theorem State.setMode_ramb (v : BitVec 1) : (s.setMode v).ramb = s.ramb := rfl
@[simp] theorem State.setMode_ramEn (v : BitVec 1) : (s.setMode v).ramEn = s.ramEn := rfl
@[simp] theorem State.setMode_mode (v : BitVec 1) : (s.setMode v).mode = v := rfl
@[simp] theorem State.setMode_saved (v : BitVec 1) : (s.setMode v).saved = s.saved := rfl
@[simp] theorem State.setMode_rom (v : BitVec 1) : (s.setMode v).rom = s.rom := rfl
@[simp] theorem State.setMode_ram (v : BitVec 1) : (s.setMode v).ram = s.ram := rfl
@[simp] theorem State.setMode_pending (v : BitVec 1) : (s.setMode v).pending = s.pending := rfl
@[simp] theorem State.setMode_output (v : BitVec 1) : (s.setMode v).output = s.output := rfl
@[simp] theorem State.setMode_draws (v : BitVec 1) : (s.setMode v).draws = s.draws := rfl
@[simp] theorem State.setMode_romLen (v : BitVec 1) : (s.setMode v).romLen = s.romLen := rfl
@[simp] theorem State.setMode_romRead (v : BitVec 1) (i : Nat) : (s.setMode v).romRead i = s.romRead i := rfl
@[simp] theorem State.setMode_ramRead (v : BitVec 1) (i : Nat) : (s.setMode v).ramRead i = s.ramRead i := rfl

@[simp] theorem State.setSaved_fam (v : Option (BitVec 9)) : (s.setSaved v).fam = s.fam := rfl
@[simp] theorem State.setSaved_bankCount (v : Option (BitVec 9)) : (s.setSaved v).bankCount = s.bankCount := rfl
@[simp] theorem State.setSaved_battery (v : Option (BitVec 9)) : (s.setSaved v).battery = s.battery := rfl
@[simp] theorem State.setSaved_ramBankCount (v : Option (BitVec 9)) : (s.setSaved v).ramBankCount = s.ramBankCount := rfl
@[simp] theorem State.setSaved_romb (v : Option (BitVec 9)) : (s.setSaved v).romb = s.romb := rfl
@[simp] theorem State.setSaved_ramb (v : Option (BitVec 9)) : (s.setSaved v).ramb = s.ramb := rfl
@[simp] theorem State.setSaved_ramEn (v : Option (BitVec 9)) : (s.setSaved v).ramEn = s.ramEn := rfl
@[simp] theorem State.setSaved_mode (v : Option (BitVec 9)) : (s.setSaved v).mode = s.mode := rfl
@[simp] theorem State.setSaved_saved (v : Option (BitVec 9)) : (s.setSaved v).saved = v := rfl
@[simp] theorem State.setSaved_rom (v : Option (BitVec 9)) : (s.setSaved v).rom = s.rom := rfl
@[simp] theorem State.setSaved_ram (v : Option (BitVec 9)) : (s.setSaved v).ram = s.ram := rfl
@[simp] theorem State.setSaved_pending (v : Option (BitVec 9)) : (s.setSaved v).pending = s.pending := rfl
@[simp] theorem State.setSaved_output (v : Option (BitVec 9)) : (s.setSaved v).output = s.output := rfl
@[simp] theorem State.setSaved_draws (v : Option (BitVec 9)) : (s.setSaved v).draws = s.draws := rfl
@[simp] theorem State.setSaved_romLen (v : Option (BitVec 9)) : (s.setSaved v).romLen = s.romLen := rfl
@[simp] theorem State.setSaved_romRead (v : Option (BitVec 9)) (i : Nat) : (s.setSaved v).romRead i = s.romRead i := rfl
@[simp] theorem State.setSaved_ramRead (v : Option (BitVec 9)) (i : Nat) : (s.setSaved v).ramRead i = s.ramRead i := rfl

@[simp] theorem State.answer_fam (o : Output) : (s.answer o).fam = s.fam := rfl
@[simp] theorem State.answer_bankCount (o : Output) : (s.answer o).bankCount = s.bankCount := rfl
@[simp] theorem State.answer_battery (o : Output) : (s.answer o).battery = s.battery := rfl
@[simp] theorem State.answer_ramBankCount (o : Output) : (s.answer o).ramBankCount = s.ramBankCount := rfl
@[simp] theorem State.answer_romb (o : Output) : (s.answer o).romb = s.romb := rfl
@[simp] theorem State.answer_ramb (o : Output) : (s.answer o).ramb = s.ramb := rfl
@[simp] theorem State.answer_ramEn (o : Output) : (s.answer o).ramEn = s.ramEn := rfl
@[simp] theorem State.answer_mode (o : Output) : (s.answer o).mode = s.mode := rfl
@[simp] theorem State.answer_saved (o : Output) : (s.answer o).saved = s.saved := rfl
@[simp] theorem State.answer_rom (o : Output) : (s.answer o).rom = s.rom := rfl
@[simp] theorem State.answer_ram (o : Output) : (s.answer o).ram = s.ram := rfl
@[simp] theorem State.answer_pending (o : Output) : (s.answer o).pending = s.pending := rfl
@[simp] theorem State.answer_output (o : Output) : (s.answer o).output = o := rfl
@[simp] theorem State.answer_draws (o : Output) : (s.answer o).draws = s.draws := rfl
@[simp] theorem State.answer_romLen (o : Output) : (s.answer o).romLen = s.romLen := rfl
@[simp] theorem State.answer_romRead (o : Output) (i : Nat) : (s.answer o).romRead i = s.romRead i := rfl
@[simp] theorem State.answer_ramRead (o : Output) (i : Nat) : (s.answer o).ramRead i = s.ramRead i := rfl

@[simp] theorem State.answerUndef8_fam : (s.answerUndef8).fam = s.fam := rfl
@[simp] theorem State.answerUndef8_bankCount : (s.answerUndef8).bankCount = s.bankCount := rfl
@[simp] theorem State.answerUndef8_battery : (s.answerUndef8).battery = s.battery := rfl
@[simp] theorem State.answerUndef8_ramBankCount : (s.answerUndef8).ramBankCount = s.ramBankCount := rfl
@[simp] theorem State.answerUndef8_romb : (s.answerUndef8).romb = s.romb := rfl
@[simp] theorem State.answerUndef8_ramb : (s.answerUndef8).ramb = s.ramb := rfl
@[simp] theorem State.answerUndef8_ramEn : (s.answerUndef8).ramEn = s.ramEn := rfl
@[simp] theorem State.answerUndef8_mode : (s.answerUndef8).mode = s.mode := rfl
@[simp] theorem State.answerUndef8_saved : (s.answerUndef8).saved = s.saved := rfl
@[simp] theorem State.answerUndef8_rom : (s.answerUndef8).rom = s.rom := rfl
@[simp] theorem State.answerUndef8_ram : (s.answerUndef8).ram = s.ram := rfl
@[simp] theorem State.answerUndef8_pending : (s.answerUndef8).pending = s.pending := rfl
@[simp] theorem State.answerUndef8_output : (s.answerUndef8).output = .byte (Config.undef8 s.draws) := rfl
@[simp] theorem State.answerUndef8_draws : (s.answerUndef8).draws = s.draws + 1 := rfl
@[simp] theorem State.answerUndef8_romLen : (s.answerUndef8).romLen = s.romLen := rfl
@[simp] theorem State.answerUndef8_romRead (i : Nat) : (s.answerUndef8).romRead i = s.romRead i := rfl
@[simp] theorem State.answerUndef8_ramRead (i : Nat) : (s.answerUndef8).ramRead i = s.ramRead i := rfl

@[simp] theorem State.answerText_fam : (s.answerText).fam = s.fam := rfl
@[simp] theorem State.answerText_bankCount : (s.answerText).bankCount = s.bankCount := rfl
@[simp] theorem State.answerText_battery : (s.answerText).battery = s.battery := rfl
@[simp] theorem State.answerText_ramBankCount : (s.answerText).ramBankCount = s.ramBankCount := rfl
@[simp] theorem State.answerText_romb : (s.answerText).romb = s.romb := rfl
@[simp] theorem State.answerText_ramb : (s.answerText).ramb = s.ramb := rfl
@[simp] theorem State.answerText_ramEn : (s.answerText).ramEn = s.ramEn := rfl
@[simp] theorem State.answerText_mode : (s.answerText).mode = s.mode := rfl
@[simp] theorem State.answerText_saved : (s.answerText).saved = s.saved := rfl
@[simp] theorem State.answerText_rom : (s.answerText).rom = s.rom := rfl
@[simp] theorem State.answerText_ram : (s.answerText).ram = s.ram := rfl
@[simp] theorem State.answerText_pending : (s.answerText).pending = s.pending := rfl
@[simp] theorem State.answerText_output : (s.answerText).output = .info (Config.mapInfoText s.draws) := rfl
@[simp] theorem State.answerText_draws : (s.answerText).draws = s.draws + 1 := rfl
@[simp] theorem State.answerText_romLen : (s.answerText).romLen = s.romLen := rfl
@[simp] theorem State.answerText_romRead (i : Nat) : (s.answerText).romRead i = s.romRead i := rfl
@[simp] theorem State.answerText_ramRead (i : Nat) : (s.answerText).ramRead i = s.ramRead i := rfl

@[simp] theorem State.withPending_fam (p : List Request) : (s.withPending p).fam = s.fam := rfl
@[simp] theorem State.withPending_bankCount (p : List Request) : (s.withPending p).bankCount = s.bankCount := rfl
@[simp] theorem State.withPending_battery (p : List Request) : (s.withPending p).battery = s.battery := rfl
@[simp] theorem State.withPending_ramBankCount (p : List Request) : (s.withPending p).ramBankCount = s.ramBankCount := rfl
@[simp] theorem State.withPending_romb (p : List Request) : (s.withPending p).romb = s.romb := rfl
@[simp] theorem State.withPending_ramb (p : List Request) : (s.withPending p).ramb = s.ramb := rfl
@[simp] theorem State.withPending_ramEn (p : List Request) : (s.withPending p).ramEn = s.ramEn := rfl
@[simp] theorem State.withPending_mode (p : List Request) : (s.withPending p).mode = s.mode := rfl
@[simp] theorem State.withPending_saved (p : List Request) : (s.withPending p).saved = s.saved := rfl
@[simp] theorem State.withPending_rom (p : List Request) : (s.withPending p).rom = s.rom := rfl
@[simp] theorem State.withPending_ram (p : List Request) : (s.withPending p).ram = s.ram := rfl
@[simp] theorem State.withPending_pending (p : List Request) : (s.withPending p).pending = p := rfl
@[simp] theorem State.withPending_output (p : List Request) : (s.withPending p).output = s.output := rfl
@[simp] theorem State.withPending_draws (p : List Request) : (s.withPending p).draws = s.draws := rfl
@[simp] theorem State.withPending_romLen (p : List Request) : (s.withPending p).romLen = s.romLen := rfl
@[simp] theorem State.withPending_romRead (p : List Request) (i : Nat) : (s.withPending p).romRead i = s.romRead i := rfl
@[simp] theorem State.withPending_ramRead (p : List Request) (i : Nat) : (s.withPending p).ramRead i = s.ramRead i := rfl

end Sys2Proof.Machine
end

