-- ==== Sys2Proof/Laws/Ops.lean ====
section
/-! SUPPORT. What each shared operation can answer, and what one step can do. -/

namespace Sys2Proof.Machine

variable {s t : State}

theorem nop_next (h : nop s = .next t) : t = s.answer .none := by
  cases h; rfl

theorem readRom0_next {a : Addr} (h : readRom0 a s = .next t) :
    t = s.answer (.byte (s.romRead (romOffset0 a))) := by
  cases h; rfl

/-- READ of the switched window answers the mapped byte inside the image and a free byte beyond it. -/
theorem readRomX_next {a : Addr} (h : readRomX a s = .next t) :
    (romOffsetX s.romb a < s.romLen ∧ t = s.answer (.byte (s.romRead (romOffsetX s.romb a)))) ∨
    (s.romLen ≤ romOffsetX s.romb a ∧ t = s.answerUndef8) := by
  unfold readRomX at h
  split at h
  · next hlt => cases h; exact .inl ⟨hlt, rfl⟩
  · next hge => cases h; exact .inr ⟨Nat.le_of_not_lt hge, rfl⟩

theorem readXram_next {a : Addr} (h : readXram a s = .next t) :
    t = s.answer (.byte (s.ramRead (ramOffset s.ramb a))) := by
  cases h; rfl

theorem readUndef_next (h : readUndef s = .next t) : t = s.answerUndef8 := by
  cases h; rfl

theorem storeXram_next {a : Addr} {d : Byte} (h : storeXram a d s = .next t) :
    t = (s.ramWrite (ramOffset s.ramb a) d).answer .none := by
  cases h; rfl

/-- A gated store stores when `RAM_EN` is 1 and does nothing when it is 0. -/
theorem storeXramGated_next {a : Addr} {d : Byte} (h : storeXramGated a d s = .next t) :
    (s.ramEn = 1#1 ∧ t = (s.ramWrite (ramOffset s.ramb a) d).answer .none) ∨
    (s.ramEn ≠ 1#1 ∧ t = s.answer .none) := by
  unfold storeXramGated at h
  split at h
  · next he => exact .inl ⟨by simpa [ramWriteEnabled] using he, storeXram_next h⟩
  · next he => exact .inr ⟨by simpa [ramWriteEnabled] using he, nop_next h⟩

theorem switchRom_next {b : BitVec 9} (h : switchRom b s = .next t) : t = (s.mapRom b).answer .none := by
  cases h; rfl

theorem switchRam_next {b : BitVec 3} (h : switchRam b s = .next t) : t = (s.mapRam b).answer .none := by
  cases h; rfl

/-- `ROMB` moves `ROM_OFF` with it (R26). -/
@[simp] theorem State.mapRom_romOff (s : State) (b : BitVec 9) : (s.mapRom b).romOff = b.toNat * 16384 := rfl

/-- `RAMB` moves `RAM_OFF` with it (R27). -/
@[simp] theorem State.mapRam_ramOff (s : State) (b : BitVec 3) : (s.mapRam b).ramOff = b.toNat * 8192 := rfl

/-- A step that answers a next state is idle or runs the transaction its oldest request decodes to. -/
theorem step_cases (h : step s = .next t) :
    (s.pending = [] ∧ t = s) ∨
    ∃ r rest i, s.pending = r :: rest ∧ r.op.toNat < 8 ∧ decodeFields r.op s.fam r.addr r.data = .ok i ∧
      exec i (s.withPending rest) = .next t := by
  unfold step at h
  split at h
  · next hp => cases h; exact .inl ⟨hp, rfl⟩
  · next r rest hp =>
    refine .inr ⟨r, rest, ?_⟩
    rw [decode_word] at h
    split at h
    · next i hd =>
      refine ⟨i, hp, ?_, hd, h⟩
      by_contra hop
      rw [decodeFields_reserved r.op r.addr r.data s.fam (by omega)] at hd
      cases hd
    · cases h

end Sys2Proof.Machine
end

