-- ==== Sys2Proof/Laws/PerInstr.lean ====
section
/-! SUPPORT. The per-instruction family `RowMatch`: the word of a well-formed transaction selects its row of
spec/opcode_table.json (R91), one lemma per constructor. -/

namespace Sys2Proof.Laws.RowMatch

open Sys2Proof Sys2Proof.Machine

/-- The word of a well-formed transaction selects the transaction's row of the opcode table, on a block of any
family. -/
def Statement (i : Instr) : Prop :=
  ∀ f, i.wf = true → i.tableRow ∈ opcodeTable ∧ i.tableRow.selects (encode f i) = true

/-- A packed word selects a row when its four fields agree with the row's under the row's mask. -/
theorem of_fields {op fam : BitVec 4} {a : Addr} {d : Byte} (bits mask : TW) (hr : ⟨bits, mask⟩ ∈ opcodeTable)
    (ho : op &&& opOf mask = opOf bits) (hf : fam &&& famOf mask = famOf bits) (ha : a &&& addrOf mask = addrOf bits)
    (hd : d &&& dataOf mask = dataOf bits) :
    ⟨bits, mask⟩ ∈ opcodeTable ∧ TableRow.selects ⟨bits, mask⟩ (packTW op fam a d) = true := by
  have e : packTW op fam a d &&& mask = bits := by
    refine (packTW_fields _).symm.trans ?_
    have h1 : opOf (packTW op fam a d &&& mask) = opOf bits :=
      BitVec.extractLsb'_and.trans ((congrArg (· &&& opOf mask) (opOf_packTW op fam a d)).trans ho)
    have h2 : famOf (packTW op fam a d &&& mask) = famOf bits :=
      BitVec.extractLsb'_and.trans ((congrArg (· &&& famOf mask) (famOf_packTW op fam a d)).trans hf)
    have h3 : addrOf (packTW op fam a d &&& mask) = addrOf bits :=
      BitVec.extractLsb'_and.trans ((congrArg (· &&& addrOf mask) (addrOf_packTW op fam a d)).trans ha)
    have h4 : dataOf (packTW op fam a d &&& mask) = dataOf bits :=
      BitVec.extractLsb'_and.trans ((congrArg (· &&& dataOf mask) (dataOf_packTW op fam a d)).trans hd)
    rw [h1, h2, h3, h4, packTW_fields]
  exact ⟨hr, by simp [TableRow.selects, e]⟩

variable {a : Addr}

/-- Bits 15 and 14 of an address. -/
theorem addr_and_C000 : a &&& 0xC000#16 = BitVec.ofNat 16 (a.toNat / 0x4000 * 0x4000) := by
  have e : a &&& 0xC000#16 = (a >>> 14) <<< 14 := by
    apply BitVec.eq_of_getLsbD_eq
    intro i hi
    interval_cases i <;> simp
  apply BitVec.eq_of_toNat_eq
  rw [e]
  simp [Nat.shiftRight_eq_div_pow, Nat.shiftLeft_eq]

/-- Bits 15 to 13 of an address. -/
theorem addr_and_E000 : a &&& 0xE000#16 = BitVec.ofNat 16 (a.toNat / 0x2000 * 0x2000) := by
  have e : a &&& 0xE000#16 = (a >>> 13) <<< 13 := by
    apply BitVec.eq_of_getLsbD_eq
    intro i hi
    interval_cases i <;> simp
  apply BitVec.eq_of_toNat_eq
  rw [e]
  simp [Nat.shiftRight_eq_div_pow, Nat.shiftLeft_eq]

/-- Bits 15 to 12 of an address. -/
theorem addr_and_F000 : a &&& 0xF000#16 = BitVec.ofNat 16 (a.toNat / 0x1000 * 0x1000) := by
  have e : a &&& 0xF000#16 = (a >>> 12) <<< 12 := by
    apply BitVec.eq_of_getLsbD_eq
    intro i hi
    interval_cases i <;> simp
  apply BitVec.eq_of_toNat_eq
  rw [e]
  simp [Nat.shiftRight_eq_div_pow, Nat.shiftLeft_eq]

/-- Bits 15 to 13 and bit 8 of an address. -/
theorem addr_and_E100 :
    a &&& 0xE100#16 = BitVec.ofNat 16 (a.toNat / 0x2000 * 0x2000 + a.toNat / 0x100 % 2 * 0x100) := by
  have e : a &&& 0xE100#16 = (a.extractLsb' 13 3).setWidth 16 <<< 13 ||| (a.extractLsb' 8 1).setWidth 16 <<< 8 := by
    apply BitVec.eq_of_getLsbD_eq
    intro i hi
    interval_cases i <;> simp
  have h := a.isLt
  apply BitVec.eq_of_toNat_eq
  rw [e, BitVec.toNat_or]
  have h1 : ((a.extractLsb' 13 3).setWidth 16 <<< 13).toNat = (a.toNat / 0x2000) <<< 13 := by
    simp [BitVec.extractLsb'_toNat, Nat.shiftRight_eq_div_pow, Nat.shiftLeft_eq]; omega
  have h2 : ((a.extractLsb' 8 1).setWidth 16 <<< 8).toNat = a.toNat / 0x100 % 2 * 0x100 := by
    simp [BitVec.extractLsb'_toNat, Nat.shiftRight_eq_div_pow, Nat.shiftLeft_eq]; omega
  rw [h1, h2, ← Nat.shiftLeft_add_eq_or_of_lt (by omega), Nat.shiftLeft_eq, BitVec.toNat_ofNat]
  omega

theorem addr_and_rom0 (h : windowOf a = .rom0) : a &&& 0xC000#16 = 0x0000#16 := by
  have h := (windowOf_eq_iff a).1.1 h
  rw [addr_and_C000, show a.toNat / 0x4000 = 0 by omega]

theorem addr_and_romX (h : windowOf a = .romX) : a &&& 0xC000#16 = 0x4000#16 := by
  have h := (windowOf_eq_iff a).2.1.1 h
  rw [addr_and_C000, show a.toNat / 0x4000 = 1 by omega]

theorem addr_and_outC (h : windowOf a = .outC) : a &&& 0xC000#16 = 0xC000#16 := by
  have h := (windowOf_eq_iff a).2.2.2.2.1 h
  have l := a.isLt
  rw [addr_and_C000, show a.toNat / 0x4000 = 3 by omega]

theorem addr_and_out8 (h : windowOf a = .out8) : a &&& 0xE000#16 = 0x8000#16 := by
  have h := (windowOf_eq_iff a).2.2.1.1 h
  rw [addr_and_E000, show a.toNat / 0x2000 = 4 by omega]

theorem addr_and_xram (h : windowOf a = .xram) : a &&& 0xE000#16 = 0xA000#16 := by
  have h := (windowOf_eq_iff a).2.2.2.1.1 h
  rw [addr_and_E000, show a.toNat / 0x2000 = 5 by omega]

theorem addr_and_s0 (h : sliceOf a = .s0) : a &&& 0xE000#16 = 0x0000#16 := by
  have h := (sliceOf_eq_iff a).1.1 h
  rw [addr_and_E000, show a.toNat / 0x2000 = 0 by omega]

theorem addr_and_s1 (h : sliceOf a = .s1) : a &&& 0xE000#16 = 0x2000#16 := by
  have h := (sliceOf_eq_iff a).2.1.1 h
  rw [addr_and_E000, show a.toNat / 0x2000 = 1 by omega]

theorem addr_and_s2 (h : sliceOf a = .s2) : a &&& 0xE000#16 = 0x4000#16 := by
  have h := (sliceOf_eq_iff a).2.2.1.1 h
  rw [addr_and_E000, show a.toNat / 0x2000 = 2 by omega]

theorem addr_and_s3 (h : sliceOf a = .s3) : a &&& 0xE000#16 = 0x6000#16 := by
  have h := (sliceOf_eq_iff a).2.2.2.1.1 h
  rw [addr_and_E000, show a.toNat / 0x2000 = 3 by omega]

theorem addr_and_s1_bit8_set (h : (sliceOf a == .s1 && addrBit8 a) = true) : a &&& 0xE100#16 = 0x2100#16 := by
  rw [Bool.and_eq_true, beq_iff_eq, (sliceOf_eq_iff a).2.1, addrBit8_iff] at h
  rw [addr_and_E100, h.2, show a.toNat / 0x2000 = 1 by omega]

theorem addr_and_s1_bit8_clear (h : (sliceOf a == .s1 && !addrBit8 a) = true) : a &&& 0xE100#16 = 0x2000#16 := by
  rw [Bool.and_eq_true, beq_iff_eq, (sliceOf_eq_iff a).2.1, Bool.not_eq_true', Bool.eq_false_iff, ne_eq, addrBit8_iff] at h
  rw [addr_and_E100, show a.toNat / 0x100 % 2 = 0 by omega, show a.toNat / 0x2000 = 1 by omega]

theorem addr_and_s1_bit12_set (h : (sliceOf a == .s1 && addrBit12 a) = true) : a &&& 0xF000#16 = 0x3000#16 := by
  rw [Bool.and_eq_true, beq_iff_eq, (sliceOf_eq_iff a).2.1, addrBit12_iff] at h
  rw [addr_and_F000, show a.toNat / 0x1000 = 3 by omega]

theorem addr_and_s1_bit12_clear (h : (sliceOf a == .s1 && !addrBit12 a) = true) : a &&& 0xF000#16 = 0x2000#16 := by
  rw [Bool.and_eq_true, beq_iff_eq, (sliceOf_eq_iff a).2.1, Bool.not_eq_true', Bool.eq_false_iff, ne_eq, addrBit12_iff] at h
  rw [addr_and_F000, show a.toNat / 0x1000 = 2 by omega]

theorem rdRom0None (a : Addr) : Statement (.rdRom0None a) := fun _ h =>
  of_fields 0x00000000#32 0xFFC00000#32 (by decide) rfl rfl (addr_and_rom0 (eq_of_beq h)) BitVec.and_zero

theorem rdRomXNone (a : Addr) : Statement (.rdRomXNone a) := fun _ h =>
  of_fields 0x00400000#32 0xFFC00000#32 (by decide) rfl rfl (addr_and_romX (eq_of_beq h)) BitVec.and_zero

theorem rdXramNone (a : Addr) : Statement (.rdXramNone a) := fun _ h =>
  of_fields 0x00A00000#32 0xFFE00000#32 (by decide) rfl rfl (addr_and_xram (eq_of_beq h)) BitVec.and_zero

theorem rdOut8None (a : Addr) : Statement (.rdOut8None a) := fun _ h =>
  of_fields 0x00800000#32 0xFFE00000#32 (by decide) rfl rfl (addr_and_out8 (eq_of_beq h)) BitVec.and_zero

theorem rdOutCNone (a : Addr) : Statement (.rdOutCNone a) := fun _ h =>
  of_fields 0x00C00000#32 0xFFC00000#32 (by decide) rfl rfl (addr_and_outC (eq_of_beq h)) BitVec.and_zero

theorem rdRom0Mbc1 (a : Addr) : Statement (.rdRom0Mbc1 a) := fun _ h =>
  of_fields 0x01000000#32 0xFFC00000#32 (by decide) rfl rfl (addr_and_rom0 (eq_of_beq h)) BitVec.and_zero

theorem rdRomXMbc1 (a : Addr) : Statement (.rdRomXMbc1 a) := fun _ h =>
  of_fields 0x01400000#32 0xFFC00000#32 (by decide) rfl rfl (addr_and_romX (eq_of_beq h)) BitVec.and_zero

theorem rdXramMbc1 (a : Addr) : Statement (.rdXramMbc1 a) := fun _ h =>
  of_fields 0x01A00000#32 0xFFE00000#32 (by decide) rfl rfl (addr_and_xram (eq_of_beq h)) BitVec.and_zero

theorem rdOut8Mbc1 (a : Addr) : Statement (.rdOut8Mbc1 a) := fun _ h =>
  of_fields 0x01800000#32 0xFFE00000#32 (by decide) rfl rfl (addr_and_out8 (eq_of_beq h)) BitVec.and_zero

theorem rdOutCMbc1 (a : Addr) : Statement (.rdOutCMbc1 a) := fun _ h =>
  of_fields 0x01C00000#32 0xFFC00000#32 (by decide) rfl rfl (addr_and_outC (eq_of_beq h)) BitVec.and_zero

theorem rdRom0Mbc2 (a : Addr) : Statement (.rdRom0Mbc2 a) := fun _ h =>
  of_fields 0x02000000#32 0xFFC00000#32 (by decide) rfl rfl (addr_and_rom0 (eq_of_beq h)) BitVec.and_zero

theorem rdRomXMbc2 (a : Addr) : Statement (.rdRomXMbc2 a) := fun _ h =>
  of_fields 0x02400000#32 0xFFC00000#32 (by decide) rfl rfl (addr_and_romX (eq_of_beq h)) BitVec.and_zero

theorem rdXramMbc2 (a : Addr) : Statement (.rdXramMbc2 a) := fun _ h =>
  of_fields 0x02A00000#32 0xFFE00000#32 (by decide) rfl rfl (addr_and_xram (eq_of_beq h)) BitVec.and_zero

theorem rdOut8Mbc2 (a : Addr) : Statement (.rdOut8Mbc2 a) := fun _ h =>
  of_fields 0x02800000#32 0xFFE00000#32 (by decide) rfl rfl (addr_and_out8 (eq_of_beq h)) BitVec.and_zero

theorem rdOutCMbc2 (a : Addr) : Statement (.rdOutCMbc2 a) := fun _ h =>
  of_fields 0x02C00000#32 0xFFC00000#32 (by decide) rfl rfl (addr_and_outC (eq_of_beq h)) BitVec.and_zero

theorem rdRom0Mbc5 (a : Addr) : Statement (.rdRom0Mbc5 a) := fun _ h =>
  of_fields 0x05000000#32 0xFFC00000#32 (by decide) rfl rfl (addr_and_rom0 (eq_of_beq h)) BitVec.and_zero

theorem rdRomXMbc5 (a : Addr) : Statement (.rdRomXMbc5 a) := fun _ h =>
  of_fields 0x05400000#32 0xFFC00000#32 (by decide) rfl rfl (addr_and_romX (eq_of_beq h)) BitVec.and_zero

theorem rdXramMbc5 (a : Addr) : Statement (.rdXramMbc5 a) := fun _ h =>
  of_fields 0x05A00000#32 0xFFE00000#32 (by decide) rfl rfl (addr_and_xram (eq_of_beq h)) BitVec.and_zero

theorem rdOut8Mbc5 (a : Addr) : Statement (.rdOut8Mbc5 a) := fun _ h =>
  of_fields 0x05800000#32 0xFFE00000#32 (by decide) rfl rfl (addr_and_out8 (eq_of_beq h)) BitVec.and_zero

theorem rdOutCMbc5 (a : Addr) : Statement (.rdOutCMbc5 a) := fun _ h =>
  of_fields 0x05C00000#32 0xFFC00000#32 (by decide) rfl rfl (addr_and_outC (eq_of_beq h)) BitVec.and_zero

theorem rdUnsup (a : Addr) : Statement (.rdUnsup a) := fun _ _ =>
  of_fields 0x0F000000#32 0xFF000000#32 (by decide) rfl rfl BitVec.and_zero BitVec.and_zero

theorem wrNoneNop (a : Addr) (d : Byte) : Statement (.wrNoneNop a d) := fun _ _ =>
  of_fields 0x10000000#32 0xFF000000#32 (by decide) rfl rfl BitVec.and_zero BitVec.and_zero

theorem wrUnsupNop (a : Addr) (d : Byte) : Statement (.wrUnsupNop a d) := fun _ _ =>
  of_fields 0x1F000000#32 0xFF000000#32 (by decide) rfl rfl BitVec.and_zero BitVec.and_zero

theorem wrMbc1Ramen (a : Addr) (d : Byte) : Statement (.wrMbc1Ramen a d) := fun _ h =>
  of_fields 0x11000000#32 0xFFE00000#32 (by decide) rfl rfl (addr_and_s0 (eq_of_beq h)) BitVec.and_zero

theorem wrMbc1RombLo (a : Addr) (d : Byte) : Statement (.wrMbc1RombLo a d) := fun _ h =>
  of_fields 0x11200000#32 0xFFE00000#32 (by decide) rfl rfl (addr_and_s1 (eq_of_beq h)) BitVec.and_zero

theorem wrMbc1Bank2 (a : Addr) (d : Byte) : Statement (.wrMbc1Bank2 a d) := fun _ h =>
  of_fields 0x11400000#32 0xFFE00000#32 (by decide) rfl rfl (addr_and_s2 (eq_of_beq h)) BitVec.and_zero

theorem wrMbc1Modesel (a : Addr) (d : Byte) : Statement (.wrMbc1Modesel a d) := fun _ h =>
  of_fields 0x11600000#32 0xFFE00000#32 (by decide) rfl rfl (addr_and_s3 (eq_of_beq h)) BitVec.and_zero

theorem wrMbc1Ramwr (a : Addr) (d : Byte) : Statement (.wrMbc1Ramwr a d) := fun _ h =>
  of_fields 0x11A00000#32 0xFFE00000#32 (by decide) rfl rfl (addr_and_xram (eq_of_beq h)) BitVec.and_zero

theorem wrMbc1Nop8 (a : Addr) (d : Byte) : Statement (.wrMbc1Nop8 a d) := fun _ h =>
  of_fields 0x11800000#32 0xFFE00000#32 (by decide) rfl rfl (addr_and_out8 (eq_of_beq h)) BitVec.and_zero

theorem wrMbc1NopC (a : Addr) (d : Byte) : Statement (.wrMbc1NopC a d) := fun _ h =>
  of_fields 0x11C00000#32 0xFFC00000#32 (by decide) rfl rfl (addr_and_outC (eq_of_beq h)) BitVec.and_zero

theorem wrMbc2Romb (a : Addr) (d : Byte) : Statement (.wrMbc2Romb a d) := fun _ h =>
  of_fields 0x12210000#32 0xFFE10000#32 (by decide) rfl rfl (addr_and_s1_bit8_set h) BitVec.and_zero

theorem wrMbc2NopA8 (a : Addr) (d : Byte) : Statement (.wrMbc2NopA8 a d) := fun _ h =>
  of_fields 0x12200000#32 0xFFE10000#32 (by decide) rfl rfl (addr_and_s1_bit8_clear h) BitVec.and_zero

theorem wrMbc2Ramwr (a : Addr) (d : Byte) : Statement (.wrMbc2Ramwr a d) := fun _ h =>
  of_fields 0x12A00000#32 0xFFE00000#32 (by decide) rfl rfl (addr_and_xram (eq_of_beq h)) BitVec.and_zero

theorem wrMbc2Nop0 (a : Addr) (d : Byte) : Statement (.wrMbc2Nop0 a d) := fun _ h =>
  of_fields 0x12000000#32 0xFFE00000#32 (by decide) rfl rfl (addr_and_s0 (eq_of_beq h)) BitVec.and_zero

theorem wrMbc2Nop4 (a : Addr) (d : Byte) : Statement (.wrMbc2Nop4 a d) := fun _ h =>
  of_fields 0x12400000#32 0xFFC00000#32 (by decide) rfl rfl (addr_and_romX (eq_of_beq h)) BitVec.and_zero

theorem wrMbc2Nop8 (a : Addr) (d : Byte) : Statement (.wrMbc2Nop8 a d) := fun _ h =>
  of_fields 0x12800000#32 0xFFE00000#32 (by decide) rfl rfl (addr_and_out8 (eq_of_beq h)) BitVec.and_zero

theorem wrMbc2NopC (a : Addr) (d : Byte) : Statement (.wrMbc2NopC a d) := fun _ h =>
  of_fields 0x12C00000#32 0xFFC00000#32 (by decide) rfl rfl (addr_and_outC (eq_of_beq h)) BitVec.and_zero

theorem wrMbc5RombLo8 (a : Addr) (d : Byte) : Statement (.wrMbc5RombLo8 a d) := fun _ h =>
  of_fields 0x15200000#32 0xFFF00000#32 (by decide) rfl rfl (addr_and_s1_bit12_clear h) BitVec.and_zero

theorem wrMbc5RombHi (a : Addr) (d : Byte) : Statement (.wrMbc5RombHi a d) := fun _ h =>
  of_fields 0x15300000#32 0xFFF00000#32 (by decide) rfl rfl (addr_and_s1_bit12_set h) BitVec.and_zero

theorem wrMbc5Ramb (a : Addr) (d : Byte) : Statement (.wrMbc5Ramb a d) := fun _ h =>
  of_fields 0x15400000#32 0xFFE00000#32 (by decide) rfl rfl (addr_and_s2 (eq_of_beq h)) BitVec.and_zero

theorem wrMbc5Ramwr (a : Addr) (d : Byte) : Statement (.wrMbc5Ramwr a d) := fun _ h =>
  of_fields 0x15A00000#32 0xFFE00000#32 (by decide) rfl rfl (addr_and_xram (eq_of_beq h)) BitVec.and_zero

theorem wrMbc5Nop0 (a : Addr) (d : Byte) : Statement (.wrMbc5Nop0 a d) := fun _ h =>
  of_fields 0x15000000#32 0xFFE00000#32 (by decide) rfl rfl (addr_and_s0 (eq_of_beq h)) BitVec.and_zero

theorem wrMbc5Nop6 (a : Addr) (d : Byte) : Statement (.wrMbc5Nop6 a d) := fun _ h =>
  of_fields 0x15600000#32 0xFFE00000#32 (by decide) rfl rfl (addr_and_s3 (eq_of_beq h)) BitVec.and_zero

theorem wrMbc5Nop8 (a : Addr) (d : Byte) : Statement (.wrMbc5Nop8 a d) := fun _ h =>
  of_fields 0x15800000#32 0xFFE00000#32 (by decide) rfl rfl (addr_and_out8 (eq_of_beq h)) BitVec.and_zero

theorem wrMbc5NopC (a : Addr) (d : Byte) : Statement (.wrMbc5NopC a d) := fun _ h =>
  of_fields 0x15C00000#32 0xFFC00000#32 (by decide) rfl rfl (addr_and_outC (eq_of_beq h)) BitVec.and_zero

theorem reset : Statement .reset := fun _ _ =>
  of_fields 0x20000000#32 0xF0000000#32 (by decide) rfl BitVec.and_zero BitVec.and_zero BitVec.and_zero

theorem saveMapping : Statement .saveMapping := fun _ _ =>
  of_fields 0x30000000#32 0xF0000000#32 (by decide) rfl BitVec.and_zero BitVec.and_zero BitVec.and_zero

theorem restoreMapping : Statement .restoreMapping := fun _ _ =>
  of_fields 0x40000000#32 0xF0000000#32 (by decide) rfl BitVec.and_zero BitVec.and_zero BitVec.and_zero

theorem dbgwRom0 (a : Addr) (d : Byte) : Statement (.dbgwRom0 a d) := fun _ h =>
  of_fields 0x50000000#32 0xF0C00000#32 (by decide) rfl BitVec.and_zero (addr_and_rom0 (eq_of_beq h)) BitVec.and_zero

theorem dbgwRomX (a : Addr) (d : Byte) : Statement (.dbgwRomX a d) := fun _ h =>
  of_fields 0x50400000#32 0xF0C00000#32 (by decide) rfl BitVec.and_zero (addr_and_romX (eq_of_beq h)) BitVec.and_zero

theorem dbgwXram (a : Addr) (d : Byte) : Statement (.dbgwXram a d) := fun _ h =>
  of_fields 0x50A00000#32 0xF0E00000#32 (by decide) rfl BitVec.and_zero (addr_and_xram (eq_of_beq h)) BitVec.and_zero

theorem dbgwOut8 (a : Addr) (d : Byte) : Statement (.dbgwOut8 a d) := fun _ h =>
  of_fields 0x50800000#32 0xF0E00000#32 (by decide) rfl BitVec.and_zero (addr_and_out8 (eq_of_beq h)) BitVec.and_zero

theorem dbgwOutC (a : Addr) (d : Byte) : Statement (.dbgwOutC a d) := fun _ h =>
  of_fields 0x50C00000#32 0xF0C00000#32 (by decide) rfl BitVec.and_zero (addr_and_outC (eq_of_beq h)) BitVec.and_zero

theorem currentBank : Statement .currentBank := fun _ _ =>
  of_fields 0x60000000#32 0xF0000000#32 (by decide) rfl BitVec.and_zero BitVec.and_zero BitVec.and_zero

theorem mapInfo : Statement .mapInfo := fun _ _ =>
  of_fields 0x70000000#32 0xF0000000#32 (by decide) rfl BitVec.and_zero BitVec.and_zero BitVec.and_zero

end Sys2Proof.Laws.RowMatch
end

