-- ==== Sys2Proof/Tests/Slice0.lean ====
section
/-! SUPPORT. The model's own tests. Expected results come from spec/95_test_vectors.md (the vector is named) or from the
rule named; the last part holds one witness for the hypotheses of each obligation. -/

namespace Sys2Proof.Tests

open Sys2Proof Sys2Proof.Machine

/-! ### Well-formedness -/

theorem test_wf_accepts_read :
    [(.rdRom0None 0x0000#16 : Instr), .rdRom0None 0x3FFF#16, .rdRomXNone 0x4000#16, .rdRomXNone 0x7FFF#16,
     .rdXramNone 0xA000#16, .rdXramNone 0xBFFF#16, .rdOut8None 0x8000#16, .rdOut8None 0x9FFF#16,
     .rdOutCNone 0xC000#16, .rdOutCNone 0xFFFF#16, .rdRom0Mbc1 0x0000#16, .rdRom0Mbc1 0x3FFF#16,
     .rdRomXMbc1 0x4000#16, .rdRomXMbc1 0x7FFF#16, .rdXramMbc1 0xA000#16, .rdXramMbc1 0xBFFF#16,
     .rdOut8Mbc1 0x8000#16, .rdOut8Mbc1 0x9FFF#16, .rdOutCMbc1 0xC000#16, .rdOutCMbc1 0xFFFF#16,
     .rdRom0Mbc2 0x0000#16, .rdRom0Mbc2 0x3FFF#16, .rdRomXMbc2 0x4000#16, .rdRomXMbc2 0x7FFF#16,
     .rdXramMbc2 0xA000#16, .rdXramMbc2 0xBFFF#16, .rdOut8Mbc2 0x8000#16, .rdOut8Mbc2 0x9FFF#16,
     .rdOutCMbc2 0xC000#16, .rdOutCMbc2 0xFFFF#16, .rdRom0Mbc5 0x0000#16, .rdRom0Mbc5 0x3FFF#16,
     .rdRomXMbc5 0x4000#16, .rdRomXMbc5 0x7FFF#16, .rdXramMbc5 0xA000#16, .rdXramMbc5 0xBFFF#16,
     .rdOut8Mbc5 0x8000#16, .rdOut8Mbc5 0x9FFF#16, .rdOutCMbc5 0xC000#16, .rdOutCMbc5 0xFFFF#16, .rdUnsup 0x0000#16,
     .rdUnsup 0xFFFF#16].all (fun i => i.wf) = true := by
  decide

theorem test_wf_refuses_read :
    [(.rdRom0None 0x4000#16 : Instr), .rdRom0None 0xFFFF#16, .rdRomXNone 0x3FFF#16, .rdRomXNone 0x8000#16,
     .rdXramNone 0x9FFF#16, .rdXramNone 0xC000#16, .rdOut8None 0x7FFF#16, .rdOut8None 0xA000#16,
     .rdOutCNone 0xBFFF#16, .rdOutCNone 0x0000#16, .rdRom0Mbc1 0x4000#16, .rdRom0Mbc1 0xFFFF#16,
     .rdRomXMbc1 0x3FFF#16, .rdRomXMbc1 0x8000#16, .rdXramMbc1 0x9FFF#16, .rdXramMbc1 0xC000#16,
     .rdOut8Mbc1 0x7FFF#16, .rdOut8Mbc1 0xA000#16, .rdOutCMbc1 0xBFFF#16, .rdOutCMbc1 0x0000#16,
     .rdRom0Mbc2 0x4000#16, .rdRom0Mbc2 0xFFFF#16, .rdRomXMbc2 0x3FFF#16, .rdRomXMbc2 0x8000#16,
     .rdXramMbc2 0x9FFF#16, .rdXramMbc2 0xC000#16, .rdOut8Mbc2 0x7FFF#16, .rdOut8Mbc2 0xA000#16,
     .rdOutCMbc2 0xBFFF#16, .rdOutCMbc2 0x0000#16, .rdRom0Mbc5 0x4000#16, .rdRom0Mbc5 0xFFFF#16,
     .rdRomXMbc5 0x3FFF#16, .rdRomXMbc5 0x8000#16, .rdXramMbc5 0x9FFF#16, .rdXramMbc5 0xC000#16,
     .rdOut8Mbc5 0x7FFF#16, .rdOut8Mbc5 0xA000#16, .rdOutCMbc5 0xBFFF#16, .rdOutCMbc5 0x0000#16].all (fun i => i.wf == false) = true := by
  decide

theorem test_wf_accepts_write_mbc1 :
    [(.wrMbc1Ramen 0x0000#16 0x5A#8 : Instr), .wrMbc1Ramen 0x1FFF#16 0x5A#8, .wrMbc1RombLo 0x2000#16 0x5A#8,
     .wrMbc1RombLo 0x3FFF#16 0x5A#8, .wrMbc1Bank2 0x4000#16 0x5A#8, .wrMbc1Bank2 0x5FFF#16 0x5A#8,
     .wrMbc1Modesel 0x6000#16 0x5A#8, .wrMbc1Modesel 0x7FFF#16 0x5A#8, .wrMbc1Ramwr 0xA000#16 0x5A#8,
     .wrMbc1Ramwr 0xBFFF#16 0x5A#8, .wrMbc1Nop8 0x8000#16 0x5A#8, .wrMbc1Nop8 0x9FFF#16 0x5A#8,
     .wrMbc1NopC 0xC000#16 0x5A#8, .wrMbc1NopC 0xFFFF#16 0x5A#8].all (fun i => i.wf) = true := by
  decide

theorem test_wf_refuses_write_mbc1 :
    [(.wrMbc1Ramen 0x2000#16 0x5A#8 : Instr), .wrMbc1Ramen 0xE000#16 0x5A#8, .wrMbc1RombLo 0x1FFF#16 0x5A#8,
     .wrMbc1RombLo 0x4000#16 0x5A#8, .wrMbc1Bank2 0x3FFF#16 0x5A#8, .wrMbc1Bank2 0x6000#16 0x5A#8,
     .wrMbc1Modesel 0x5FFF#16 0x5A#8, .wrMbc1Modesel 0x8000#16 0x5A#8, .wrMbc1Ramwr 0x9FFF#16 0x5A#8,
     .wrMbc1Ramwr 0xC000#16 0x5A#8, .wrMbc1Nop8 0x7FFF#16 0x5A#8, .wrMbc1Nop8 0xA000#16 0x5A#8,
     .wrMbc1NopC 0xBFFF#16 0x5A#8, .wrMbc1NopC 0x0000#16 0x5A#8].all (fun i => i.wf == false) = true := by
  decide

theorem test_wf_accepts_write_mbc2 :
    [(.wrMbc2Romb 0x2100#16 0x5A#8 : Instr), .wrMbc2Romb 0x3FFF#16 0x5A#8, .wrMbc2NopA8 0x2000#16 0x5A#8,
     .wrMbc2NopA8 0x3EFF#16 0x5A#8, .wrMbc2Ramwr 0xA000#16 0x5A#8, .wrMbc2Ramwr 0xBFFF#16 0x5A#8,
     .wrMbc2Nop0 0x0000#16 0x5A#8, .wrMbc2Nop0 0x1FFF#16 0x5A#8, .wrMbc2Nop4 0x4000#16 0x5A#8,
     .wrMbc2Nop4 0x7FFF#16 0x5A#8, .wrMbc2Nop8 0x8000#16 0x5A#8, .wrMbc2Nop8 0x9FFF#16 0x5A#8,
     .wrMbc2NopC 0xC000#16 0x5A#8, .wrMbc2NopC 0xFFFF#16 0x5A#8].all (fun i => i.wf) = true := by
  decide

theorem test_wf_refuses_write_mbc2 :
    [(.wrMbc2Romb 0x2000#16 0x5A#8 : Instr), .wrMbc2Romb 0x3EFF#16 0x5A#8, .wrMbc2Romb 0x0100#16 0x5A#8,
     .wrMbc2Romb 0x4100#16 0x5A#8, .wrMbc2NopA8 0x2100#16 0x5A#8, .wrMbc2NopA8 0x3FFF#16 0x5A#8,
     .wrMbc2NopA8 0x0000#16 0x5A#8, .wrMbc2NopA8 0x4000#16 0x5A#8, .wrMbc2Ramwr 0x9FFF#16 0x5A#8,
     .wrMbc2Ramwr 0xC000#16 0x5A#8, .wrMbc2Nop0 0x2000#16 0x5A#8, .wrMbc2Nop0 0xE000#16 0x5A#8,
     .wrMbc2Nop4 0x3FFF#16 0x5A#8, .wrMbc2Nop4 0x8000#16 0x5A#8, .wrMbc2Nop8 0x7FFF#16 0x5A#8,
     .wrMbc2Nop8 0xA000#16 0x5A#8, .wrMbc2NopC 0xBFFF#16 0x5A#8, .wrMbc2NopC 0x0000#16 0x5A#8].all (fun i => i.wf == false) = true := by
  decide

theorem test_wf_accepts_write_mbc5 :
    [(.wrMbc5RombLo8 0x2000#16 0x5A#8 : Instr), .wrMbc5RombLo8 0x2FFF#16 0x5A#8, .wrMbc5RombHi 0x3000#16 0x5A#8,
     .wrMbc5RombHi 0x3FFF#16 0x5A#8, .wrMbc5Ramb 0x4000#16 0x5A#8, .wrMbc5Ramb 0x5FFF#16 0x5A#8,
     .wrMbc5Ramwr 0xA000#16 0x5A#8, .wrMbc5Ramwr 0xBFFF#16 0x5A#8, .wrMbc5Nop0 0x0000#16 0x5A#8,
     .wrMbc5Nop0 0x1FFF#16 0x5A#8, .wrMbc5Nop6 0x6000#16 0x5A#8, .wrMbc5Nop6 0x7FFF#16 0x5A#8,
     .wrMbc5Nop8 0x8000#16 0x5A#8, .wrMbc5Nop8 0x9FFF#16 0x5A#8, .wrMbc5NopC 0xC000#16 0x5A#8,
     .wrMbc5NopC 0xFFFF#16 0x5A#8].all (fun i => i.wf) = true := by
  decide

theorem test_wf_refuses_write_mbc5 :
    [(.wrMbc5RombLo8 0x3000#16 0x5A#8 : Instr), .wrMbc5RombLo8 0x1FFF#16 0x5A#8, .wrMbc5RombHi 0x2FFF#16 0x5A#8,
     .wrMbc5RombHi 0x4000#16 0x5A#8, .wrMbc5Ramb 0x3FFF#16 0x5A#8, .wrMbc5Ramb 0x6000#16 0x5A#8,
     .wrMbc5Ramwr 0x9FFF#16 0x5A#8, .wrMbc5Ramwr 0xC000#16 0x5A#8, .wrMbc5Nop0 0x2000#16 0x5A#8,
     .wrMbc5Nop0 0xE000#16 0x5A#8, .wrMbc5Nop6 0x5FFF#16 0x5A#8, .wrMbc5Nop6 0x8000#16 0x5A#8,
     .wrMbc5Nop8 0x7FFF#16 0x5A#8, .wrMbc5Nop8 0xA000#16 0x5A#8, .wrMbc5NopC 0xBFFF#16 0x5A#8,
     .wrMbc5NopC 0x0000#16 0x5A#8].all (fun i => i.wf == false) = true := by
  decide

theorem test_wf_accepts_other :
    [(.wrNoneNop 0x0000#16 0x5A#8 : Instr), .wrNoneNop 0xFFFF#16 0x5A#8, .wrUnsupNop 0x0000#16 0x5A#8,
     .wrUnsupNop 0xFFFF#16 0x5A#8, .reset, .saveMapping, .restoreMapping, .dbgwRom0 0x0000#16 0x5A#8,
     .dbgwRom0 0x3FFF#16 0x5A#8, .dbgwRomX 0x4000#16 0x5A#8, .dbgwRomX 0x7FFF#16 0x5A#8, .dbgwXram 0xA000#16 0x5A#8,
     .dbgwXram 0xBFFF#16 0x5A#8, .dbgwOut8 0x8000#16 0x5A#8, .dbgwOut8 0x9FFF#16 0x5A#8, .dbgwOutC 0xC000#16 0x5A#8,
     .dbgwOutC 0xFFFF#16 0x5A#8, .currentBank, .mapInfo].all (fun i => i.wf) = true := by
  decide

theorem test_wf_refuses_other :
    [(.dbgwRom0 0x4000#16 0x5A#8 : Instr), .dbgwRom0 0xFFFF#16 0x5A#8, .dbgwRomX 0x3FFF#16 0x5A#8,
     .dbgwRomX 0x8000#16 0x5A#8, .dbgwXram 0x9FFF#16 0x5A#8, .dbgwXram 0xC000#16 0x5A#8, .dbgwOut8 0x7FFF#16 0x5A#8,
     .dbgwOut8 0xA000#16 0x5A#8, .dbgwOutC 0xBFFF#16 0x5A#8, .dbgwOutC 0x0000#16 0x5A#8].all (fun i => i.wf == false) = true := by
  decide

/-! ### Decoding: one word of each row, written out from 30_encoding.md and spec/95_test_vectors.md -/

theorem test_decode_read_none :
    decode 0x003FFF00#32 = .ok (.rdRom0None 0x3FFF#16) ∧
    decode 0x00400000#32 = .ok (.rdRomXNone 0x4000#16) ∧
    decode 0x00A00000#32 = .ok (.rdXramNone 0xA000#16) ∧
    decode 0x00800000#32 = .ok (.rdOut8None 0x8000#16) ∧
    decode 0x00C00000#32 = .ok (.rdOutCNone 0xC000#16) := by
  decide

theorem test_decode_read_mbc1 :
    decode 0x01012300#32 = .ok (.rdRom0Mbc1 0x0123#16) ∧
    decode 0x017FFF00#32 = .ok (.rdRomXMbc1 0x7FFF#16) ∧
    decode 0x01A01000#32 = .ok (.rdXramMbc1 0xA010#16) ∧
    decode 0x019FFF00#32 = .ok (.rdOut8Mbc1 0x9FFF#16) ∧
    decode 0x01FFFF00#32 = .ok (.rdOutCMbc1 0xFFFF#16) := by
  decide

theorem test_decode_read_mbc2 :
    decode 0x02000000#32 = .ok (.rdRom0Mbc2 0x0000#16) ∧
    decode 0x02400100#32 = .ok (.rdRomXMbc2 0x4001#16) ∧
    decode 0x02BFFF00#32 = .ok (.rdXramMbc2 0xBFFF#16) ∧
    decode 0x02900000#32 = .ok (.rdOut8Mbc2 0x9000#16) ∧
    decode 0x02C00000#32 = .ok (.rdOutCMbc2 0xC000#16) := by
  decide

theorem test_decode_read_mbc5 :
    decode 0x053FFF00#32 = .ok (.rdRom0Mbc5 0x3FFF#16) ∧
    decode 0x05400000#32 = .ok (.rdRomXMbc5 0x4000#16) ∧
    decode 0x05A01000#32 = .ok (.rdXramMbc5 0xA010#16) ∧
    decode 0x05800000#32 = .ok (.rdOut8Mbc5 0x8000#16) ∧
    decode 0x05FFFF00#32 = .ok (.rdOutCMbc5 0xFFFF#16) := by
  decide

theorem test_decode_read_unsup_write_none :
    decode 0x0FC00000#32 = .ok (.rdUnsup 0xC000#16) ∧
    decode 0x10FFFF42#32 = .ok (.wrNoneNop 0xFFFF#16 0x42#8) ∧
    decode 0x1FA00042#32 = .ok (.wrUnsupNop 0xA000#16 0x42#8) := by
  decide

theorem test_decode_write_mbc1 :
    decode 0x111FFFFA#32 = .ok (.wrMbc1Ramen 0x1FFF#16 0xFA#8) ∧
    decode 0x113FFF1F#32 = .ok (.wrMbc1RombLo 0x3FFF#16 0x1F#8) ∧
    decode 0x115FFF03#32 = .ok (.wrMbc1Bank2 0x5FFF#16 0x03#8) ∧
    decode 0x117FFFFF#32 = .ok (.wrMbc1Modesel 0x7FFF#16 0xFF#8) ∧
    decode 0x11BFFF22#32 = .ok (.wrMbc1Ramwr 0xBFFF#16 0x22#8) ∧
    decode 0x119FFF0A#32 = .ok (.wrMbc1Nop8 0x9FFF#16 0x0A#8) ∧
    decode 0x11FFFF55#32 = .ok (.wrMbc1NopC 0xFFFF#16 0x55#8) := by
  decide

theorem test_decode_write_mbc2 :
    decode 0x123FFF03#32 = .ok (.wrMbc2Romb 0x3FFF#16 0x03#8) ∧
    decode 0x123EFF03#32 = .ok (.wrMbc2NopA8 0x3EFF#16 0x03#8) ∧
    decode 0x12A0005A#32 = .ok (.wrMbc2Ramwr 0xA000#16 0x5A#8) ∧
    decode 0x1201000A#32 = .ok (.wrMbc2Nop0 0x0100#16 0x0A#8) ∧
    decode 0x12600001#32 = .ok (.wrMbc2Nop4 0x6000#16 0x01#8) ∧
    decode 0x12810003#32 = .ok (.wrMbc2Nop8 0x8100#16 0x03#8) ∧
    decode 0x12C10003#32 = .ok (.wrMbc2NopC 0xC100#16 0x03#8) := by
  decide

theorem test_decode_write_mbc5 :
    decode 0x152FFFFF#32 = .ok (.wrMbc5RombLo8 0x2FFF#16 0xFF#8) ∧
    decode 0x153FFFFE#32 = .ok (.wrMbc5RombHi 0x3FFF#16 0xFE#8) ∧
    decode 0x155FFFF8#32 = .ok (.wrMbc5Ramb 0x5FFF#16 0xF8#8) ∧
    decode 0x15BFFF22#32 = .ok (.wrMbc5Ramwr 0xBFFF#16 0x22#8) ∧
    decode 0x151FFF00#32 = .ok (.wrMbc5Nop0 0x1FFF#16 0x00#8) ∧
    decode 0x157FFF01#32 = .ok (.wrMbc5Nop6 0x7FFF#16 0x01#8) ∧
    decode 0x15800001#32 = .ok (.wrMbc5Nop8 0x8000#16 0x01#8) ∧
    decode 0x15E00001#32 = .ok (.wrMbc5NopC 0xE000#16 0x01#8) := by
  decide

theorem test_decode_operations_2_to_7 :
    decode 0x2F000000#32 = .ok .reset ∧
    decode 0x31000000#32 = .ok .saveMapping ∧
    decode 0x45000000#32 = .ok .restoreMapping ∧
    decode 0x510150CB#32 = .ok (.dbgwRom0 0x0150#16 0xCB#8) ∧
    decode 0x517FFF10#32 = .ok (.dbgwRomX 0x7FFF#16 0x10#8) ∧
    decode 0x55BFFF67#32 = .ok (.dbgwXram 0xBFFF#16 0x67#8) ∧
    decode 0x51800001#32 = .ok (.dbgwOut8 0x8000#16 0x01#8) ∧
    decode 0x51C00001#32 = .ok (.dbgwOutC 0xC000#16 0x01#8) ∧
    decode 0x6F000000#32 = .ok .currentBank ∧
    decode 0x71000000#32 = .ok .mapInfo := by
  decide

/-- EN14, EN15, and the codes next to the five family codes. -/
theorem test_decode_refuses :
    decode 0x13000000#32 = .error (.notAFamily 0x3#4) ∧
    decode 0x81000000#32 = .error (.reservedOperation 0x8#4) ∧
    decode 0x0E000000#32 = .error (.notAFamily 0xE#4) ∧
    decode 0x76000000#32 = .error (.notAFamily 0x6#4) ∧
    decode 0xFF000000#32 = .error (.reservedOperation 0xF#4) := by
  decide

/-- spec/opcode_table.json has 55 rows, all different. -/
theorem test_table_has_55_rows : opcodeTable.length = 55 ∧ opcodeTable.Nodup := by
  decide

theorem test_decode_table_word :
    decodeTableWord 32 0x11210005 = some (.wrMbc1RombLo 0x2100#16 0x05#8) ∧ decodeTableWord 32 0x81000000 = none := by
  decide

/-! ### One step -/

/-- Bytes of the test image `T` (95_test_vectors.md section 0) that the tests read. -/
def romT : Memory :=
  [(0x000123, 0x23#8), (0x003FFF, 0xFF#8), (0x004000, 0x01#8), (0x00FFFF, 0x02#8), (0x014000, 0x05#8),
   (0x03C001, 0x10#8), (0x0FFFFF, 0x3E#8), (0x115A5A, 0x9F#8), (0x1FC000, 0x7F#8), (0x1FFFFF, 0x7E#8),
   (0x7FC000, 0xFF#8), (0x7FFFFF, 0xFE#8)]

/-- The RAM of 95_test_vectors.md section 2.1. -/
def ramT : Memory :=
  [(0x0000, 0xA0#8), (0x1FFF, 0xA1#8), (0x2000, 0xB0#8), (0x6010, 0xC3#8), (0xE000, 0xD7#8), (0xFFFF, 0xEE#8)]

/-- A block at power-on with the test arrays. -/
def block (fam : Family) (banks : Nat) : State := State.powerOn fam banks false 1 romT ramT

/-- The registers of a block: `ROMB RAMB EN MODE SAVED`. -/
structure Regs where
  romb : BitVec 9
  ramb : BitVec 3
  ramEn : BitVec 1
  mode : BitVec 1
  saved : Option (BitVec 9)
deriving DecidableEq, Repr

/-- A block with the registers given. -/
def blockWith (fam : Family) (banks : Nat) (r : Regs) : State :=
  { block fam banks with romb := r.romb, ramb := r.ramb, ramEn := r.ramEn, mode := r.mode, saved := r.saved }

/-- The registers after the one transaction `w`. -/
def regsAfter (s : State) (w : Nat) : Option Regs :=
  match step (s.withFetchWord 32 w) with
  | .next t => some ⟨t.romb, t.ramb, t.ramEn, t.mode, t.saved⟩
  | .fault _ => none
  | .refused _ => none

/-- The answer of the one transaction `w`. -/
def answerAfter (s : State) (w : Nat) : Option Output :=
  match step (s.withFetchWord 32 w) with
  | .next t => some t.output
  | .fault _ => none
  | .refused _ => none

/-- The RAM after the one transaction `w`. -/
def ramAfter (s : State) (w : Nat) : Option Memory :=
  match step (s.withFetchWord 32 w) with
  | .next t => some t.ram
  | .fault _ => none
  | .refused _ => none

/-- The ROM after the one transaction `w`. -/
def romAfter (s : State) (w : Nat) : Option Memory :=
  match step (s.withFetchWord 32 w) with
  | .next t => some t.rom
  | .fault _ => none
  | .refused _ => none

/-- The refusal of the one transaction `w`. -/
def refusalAfter (s : State) (w : Nat) : Option Refusal :=
  match step (s.withFetchWord 32 w) with
  | .next _ => none
  | .fault _ => none
  | .refused r => some r

/-- RD2, RD5: the fixed window shows bank 0 whatever `ROMB` is. -/
theorem test_read_rom0 :
    answerAfter (block .none 2) 0x003FFF00 = some (.byte 0xFF#8) ∧
    answerAfter (blockWith .mbc1 128 ⟨0x07F#9, 0#3, 0#1, 0#1, none⟩) 0x01012300 = some (.byte 0x23#8) ∧
    answerAfter (block .mbc2 16) 0x023FFF00 = some (.byte 0xFF#8) ∧
    answerAfter (block .mbc5 64) 0x053FFF00 = some (.byte 0xFF#8) := by
  decide

/-- RD3, RD7, RD8, RD9, RD12, RD14, RD17: the switched window shows bank `ROMB`. -/
theorem test_read_romX :
    answerAfter (block .none 2) 0x00400000 = some (.byte 0x01#8) ∧
    answerAfter (blockWith .mbc1 128 ⟨0x07F#9, 0#3, 0#1, 0#1, none⟩) 0x017FFF00 = some (.byte 0x7E#8) ∧
    answerAfter (blockWith .mbc1 128 ⟨0x045#9, 0#3, 0#1, 0#1, none⟩) 0x015A5A00 = some (.byte 0x9F#8) ∧
    answerAfter (blockWith .mbc1 4 ⟨0x003#9, 0#3, 0#1, 0#1, none⟩) 0x017FFF00 = some (.byte 0x02#8) ∧
    answerAfter (blockWith .mbc2 16 ⟨0x00F#9, 0#3, 0#1, 0#1, none⟩) 0x02400100 = some (.byte 0x10#8) ∧
    answerAfter (blockWith .mbc5 512 ⟨0x000#9, 0#3, 0#1, 0#1, none⟩) 0x05400000 = some (.byte 0x00#8) ∧
    answerAfter (blockWith .mbc5 512 ⟨0x1FF#9, 0#3, 0#1, 0#1, none⟩) 0x057FFF00 = some (.byte 0xFE#8) := by
  decide

/-- RD10, RD11, RD13, RD19: beyond the image the read is a free byte and not, say, the byte of a mirrored bank. -/
theorem test_read_romX_beyond_the_image :
    answerAfter (blockWith .mbc1 4 ⟨0x004#9, 0#3, 0#1, 0#1, none⟩) 0x01400000 = some (.byte (Config.undef8 0)) ∧
    answerAfter (blockWith .mbc1 4 ⟨0x021#9, 0#3, 0#1, 0#1, none⟩) 0x01400000 = some (.byte (Config.undef8 0)) ∧
    answerAfter (blockWith .mbc2 16 ⟨0x010#9, 0#3, 0#1, 0#1, none⟩) 0x02400100 = some (.byte (Config.undef8 0)) ∧
    answerAfter (blockWith .mbc5 256 ⟨0x100#9, 0#3, 0#1, 0#1, none⟩) 0x05400000 = some (.byte (Config.undef8 0)) :=
  ⟨rfl, rfl, rfl, rfl⟩

/-- RD27, RD28, RD30, RD31, RD33, RD35, RD36: RAM reads ignore the latch and show bank `RAMB`. -/
theorem test_read_xram :
    answerAfter (block .mbc1 2) 0x01A00000 = some (.byte 0xA0#8) ∧
    answerAfter (block .mbc1 2) 0x01BFFF00 = some (.byte 0xA1#8) ∧
    answerAfter (blockWith .mbc1 2 ⟨1#9, 3#3, 0#1, 0#1, none⟩) 0x01A01000 = some (.byte 0xC3#8) ∧
    answerAfter (blockWith .mbc1 2 ⟨1#9, 3#3, 1#1, 0#1, none⟩) 0x01A01000 = some (.byte 0xC3#8) ∧
    answerAfter (blockWith .mbc5 2 ⟨1#9, 7#3, 0#1, 0#1, none⟩) 0x05BFFF00 = some (.byte 0xEE#8) ∧
    answerAfter (block .none 2) 0x00A00000 = some (.byte 0xA0#8) ∧
    answerAfter (block .mbc2 2) 0x02BFFF00 = some (.byte 0xA1#8) := by
  decide

/-- RD20 to RD26: reads with no given value leave the registers as they were. -/
theorem test_read_undefined :
    regsAfter (block .none 2) 0x00800000 = some ⟨1#9, 0#3, 0#1, 0#1, none⟩ ∧
    regsAfter (block .mbc1 128) 0x019FFF00 = some ⟨1#9, 0#3, 0#1, 0#1, none⟩ ∧
    regsAfter (block .mbc1 128) 0x01FFFF00 = some ⟨1#9, 0#3, 0#1, 0#1, none⟩ ∧
    regsAfter (block .mbc2 2) 0x02C00000 = some ⟨1#9, 0#3, 0#1, 0#1, none⟩ ∧
    regsAfter (block .mbc5 2) 0x05800000 = some ⟨1#9, 0#3, 0#1, 0#1, none⟩ ∧
    regsAfter (block .unsupported 2) 0x0FA00000 = some ⟨1#9, 0#3, 0#1, 0#1, none⟩ := by
  decide

/-- WN1 to WN5, WN7. -/
theorem test_write_none :
    [0x1000000A, 0x10210005, 0x10400003, 0x10600001, 0x10A00042, 0x10FFFF42].all (fun w =>
      regsAfter (block .none 2) w == some ⟨1#9, 0#3, 0#1, 0#1, none⟩ && ramAfter (block .none 2) w == some ramT) = true := by
  decide

/-- WN1 to WN5, WN7 on `UNSUPPORTED`. -/
theorem test_write_unsupported :
    [0x1F00000A, 0x1F210005, 0x1F400003, 0x1F600001, 0x1FA00042, 0x1FFFFF42].all (fun w =>
      regsAfter (block .unsupported 2) w == some ⟨1#9, 0#3, 0#1, 0#1, none⟩ &&
        ramAfter (block .unsupported 2) w == some ramT) = true := by
  decide

/-- M1-2 to M1-5. -/
theorem test_write_mbc1_ramen :
    regsAfter (block .mbc1 64) 0x111FFFFA = some ⟨1#9, 0#3, 1#1, 0#1, none⟩ ∧
    regsAfter (block .mbc1 64) 0x1100000B = some ⟨1#9, 0#3, 0#1, 0#1, none⟩ ∧
    regsAfter (blockWith .mbc1 64 ⟨1#9, 0#3, 1#1, 0#1, none⟩) 0x111234A0 = some ⟨1#9, 0#3, 0#1, 0#1, none⟩ ∧
    regsAfter (blockWith .mbc1 64 ⟨1#9, 0#3, 1#1, 0#1, none⟩) 0x11000000 = some ⟨1#9, 0#3, 0#1, 0#1, none⟩ := by
  decide

/-- M1-6, M1-8, M1-9, M1-11 to M1-14. -/
theorem test_write_mbc1_romb_lo :
    regsAfter (block .mbc1 64) 0x11200000 = some ⟨0x001#9, 0#3, 0#1, 0#1, none⟩ ∧
    regsAfter (block .mbc1 64) 0x113FFF1F = some ⟨0x01F#9, 0#3, 0#1, 0#1, none⟩ ∧
    regsAfter (block .mbc1 64) 0x11200020 = some ⟨0x001#9, 0#3, 0#1, 0#1, none⟩ ∧
    regsAfter (block .mbc1 64) 0x112000FF = some ⟨0x01F#9, 0#3, 0#1, 0#1, none⟩ ∧
    regsAfter (blockWith .mbc1 64 ⟨0x065#9, 0#3, 0#1, 0#1, none⟩) 0x11200000 = some ⟨0x061#9, 0#3, 0#1, 0#1, none⟩ ∧
    regsAfter (blockWith .mbc1 64 ⟨0x065#9, 0#3, 0#1, 0#1, none⟩) 0x11200012 = some ⟨0x072#9, 0#3, 0#1, 0#1, none⟩ ∧
    regsAfter (blockWith .mbc1 64 ⟨0x065#9, 0#3, 0#1, 0#1, none⟩) 0x113ABC60 = some ⟨0x061#9, 0#3, 0#1, 0#1, none⟩ := by
  decide

/-- M1-15 to M1-18: large-ROM mode. -/
theorem test_write_mbc1_bank2_rom :
    regsAfter (blockWith .mbc1 64 ⟨0x005#9, 0#3, 0#1, 0#1, none⟩) 0x11400001 = some ⟨0x025#9, 0#3, 0#1, 0#1, none⟩ ∧
    regsAfter (blockWith .mbc1 64 ⟨0x005#9, 0#3, 0#1, 0#1, none⟩) 0x115FFF03 = some ⟨0x065#9, 0#3, 0#1, 0#1, none⟩ ∧
    regsAfter (blockWith .mbc1 64 ⟨0x065#9, 0#3, 0#1, 0#1, none⟩) 0x11400000 = some ⟨0x005#9, 0#3, 0#1, 0#1, none⟩ ∧
    regsAfter (blockWith .mbc1 64 ⟨0x065#9, 0#3, 0#1, 0#1, none⟩) 0x114000FE = some ⟨0x045#9, 0#3, 0#1, 0#1, none⟩ := by
  decide

/-- M1-19, M1-20: large-RAM mode. -/
theorem test_write_mbc1_bank2_ram :
    regsAfter (blockWith .mbc1 64 ⟨0x065#9, 0#3, 0#1, 1#1, none⟩) 0x11400002 = some ⟨0x065#9, 2#3, 0#1, 1#1, none⟩ ∧
    regsAfter (blockWith .mbc1 64 ⟨0x065#9, 3#3, 0#1, 1#1, none⟩) 0x114000FC = some ⟨0x065#9, 0#3, 0#1, 1#1, none⟩ := by
  decide

/-- M1-22 to M1-24. -/
theorem test_write_mbc1_modesel :
    regsAfter (block .mbc1 64) 0x117FFFFF = some ⟨0x001#9, 0#3, 0#1, 1#1, none⟩ ∧
    regsAfter (blockWith .mbc1 64 ⟨0x001#9, 0#3, 0#1, 1#1, none⟩) 0x116000FE = some ⟨0x001#9, 0#3, 0#1, 0#1, none⟩ ∧
    regsAfter (blockWith .mbc1 64 ⟨0x045#9, 2#3, 0#1, 1#1, none⟩) 0x11600000 = some ⟨0x045#9, 2#3, 0#1, 0#1, none⟩ := by
  decide

/-- M1-25 to M1-28. -/
theorem test_write_mbc1_ramwr :
    ramAfter (State.powerOn .mbc1 64 false 1 [] []) 0x11A00011 = some [] ∧
    ramAfter { State.powerOn .mbc1 64 false 1 [] [] with ramEn := 1#1 } 0x11A00011 = some [(0x0000, 0x11#8)] ∧
    ramAfter { State.powerOn .mbc1 64 false 1 [] [] with ramEn := 1#1, ramb := 3#3 } 0x11BFFF22 =
      some [(0x7FFF, 0x22#8)] ∧
    ramAfter { State.powerOn .mbc1 64 false 1 [] [] with ramEn := 1#1, ramb := 1#3, mode := 1#1 } 0x11A12333 =
      some [(0x2123, 0x33#8)] := by
  decide

/-- M1-29 to M1-32. -/
theorem test_write_mbc1_nop :
    [0x11800055, 0x119FFF0A, 0x11C00055, 0x11FFFF55].all (fun w =>
      let s := blockWith .mbc1 64 ⟨1#9, 0#3, 1#1, 0#1, none⟩
      regsAfter s w == some ⟨1#9, 0#3, 1#1, 0#1, none⟩ && ramAfter s w == some ramT) = true := by
  decide

/-- M2-1, M2-4 to M2-7, M2-10. -/
theorem test_write_mbc2_romb :
    regsAfter (block .mbc2 16) 0x12210000 = some ⟨0x001#9, 0#3, 0#1, 0#1, none⟩ ∧
    regsAfter (block .mbc2 16) 0x12210010 = some ⟨0x010#9, 0#3, 0#1, 0#1, none⟩ ∧
    regsAfter (block .mbc2 16) 0x1221001F = some ⟨0x01F#9, 0#3, 0#1, 0#1, none⟩ ∧
    regsAfter (block .mbc2 16) 0x12210020 = some ⟨0x001#9, 0#3, 0#1, 0#1, none⟩ ∧
    regsAfter (block .mbc2 16) 0x122100E5 = some ⟨0x005#9, 0#3, 0#1, 0#1, none⟩ ∧
    regsAfter (blockWith .mbc2 16 ⟨0x007#9, 0#3, 0#1, 0#1, none⟩) 0x1221FF03 = some ⟨0x003#9, 0#3, 0#1, 0#1, none⟩ := by
  decide

/-- M2-8, M2-9, M2-11, M2-13 to M2-18, M2-21, M2-22. -/
theorem test_write_mbc2_nop :
    [0x12200003, 0x1220FF03, 0x12220003, 0x123EFF03, 0x1200000A, 0x1201000A, 0x12400003, 0x12410003, 0x12600001,
      0x12810003, 0x12C10003].all (fun w =>
      regsAfter (blockWith .mbc2 16 ⟨0x007#9, 0#3, 0#1, 0#1, none⟩) w == some ⟨0x007#9, 0#3, 0#1, 0#1, none⟩) = true := by
  decide

/-- M2-19, M2-20. -/
theorem test_write_mbc2_ramwr :
    ramAfter (State.powerOn .mbc2 16 false 1 [] []) 0x12A0005A = some [] ∧
    ramAfter { State.powerOn .mbc2 16 false 1 [] [] with ramEn := 1#1 } 0x12A0005A = some [(0x0000, 0x5A#8)] := by
  decide

/-- M5-1 to M5-4. -/
theorem test_write_mbc5_romb_lo8 :
    regsAfter (block .mbc5 64) 0x15200000 = some ⟨0x000#9, 0#3, 0#1, 0#1, none⟩ ∧
    regsAfter (block .mbc5 64) 0x152FFFFF = some ⟨0x0FF#9, 0#3, 0#1, 0#1, none⟩ ∧
    regsAfter (blockWith .mbc5 64 ⟨0x1AB#9, 0#3, 0#1, 0#1, none⟩) 0x15200000 = some ⟨0x100#9, 0#3, 0#1, 0#1, none⟩ ∧
    regsAfter (blockWith .mbc5 64 ⟨0x1AB#9, 0#3, 0#1, 0#1, none⟩) 0x152800CD = some ⟨0x1CD#9, 0#3, 0#1, 0#1, none⟩ := by
  decide

/-- M5-5 to M5-8. -/
theorem test_write_mbc5_romb_hi :
    regsAfter (blockWith .mbc5 64 ⟨0x0AB#9, 0#3, 0#1, 0#1, none⟩) 0x15300001 = some ⟨0x1AB#9, 0#3, 0#1, 0#1, none⟩ ∧
    regsAfter (blockWith .mbc5 64 ⟨0x1AB#9, 0#3, 0#1, 0#1, none⟩) 0x15300000 = some ⟨0x0AB#9, 0#3, 0#1, 0#1, none⟩ ∧
    regsAfter (blockWith .mbc5 64 ⟨0x1AB#9, 0#3, 0#1, 0#1, none⟩) 0x153FFFFE = some ⟨0x0AB#9, 0#3, 0#1, 0#1, none⟩ ∧
    regsAfter (blockWith .mbc5 64 ⟨0x0AB#9, 0#3, 0#1, 0#1, none⟩) 0x153000FF = some ⟨0x1AB#9, 0#3, 0#1, 0#1, none⟩ := by
  decide

/-- M5-10 to M5-13. -/
theorem test_write_mbc5_ramb :
    regsAfter (block .mbc5 64) 0x15400007 = some ⟨1#9, 7#3, 0#1, 0#1, none⟩ ∧
    regsAfter (block .mbc5 64) 0x155FFFF8 = some ⟨1#9, 0#3, 0#1, 0#1, none⟩ ∧
    regsAfter (block .mbc5 64) 0x1540000C = some ⟨1#9, 4#3, 0#1, 0#1, none⟩ ∧
    regsAfter (blockWith .mbc5 64 ⟨1#9, 5#3, 0#1, 0#1, none⟩) 0x15400000 = some ⟨1#9, 0#3, 0#1, 0#1, none⟩ := by
  decide

/-- M5-14 to M5-16. -/
theorem test_write_mbc5_ramwr :
    ramAfter (State.powerOn .mbc5 64 false 1 [] []) 0x15A00011 = some [(0x0000, 0x11#8)] ∧
    ramAfter { State.powerOn .mbc5 64 false 1 [] [] with ramb := 7#3 } 0x15BFFF22 = some [(0xFFFF, 0x22#8)] ∧
    ramAfter { State.powerOn .mbc5 64 false 1 [] [] with ramb := 4#3 } 0x15A80033 = some [(0x8800, 0x33#8)] := by
  decide

/-- M5-17 to M5-22. -/
theorem test_write_mbc5_nop :
    [0x1500000A, 0x151FFF00, 0x15600001, 0x157FFF01, 0x15800001, 0x15E00001].all (fun w =>
      regsAfter (block .mbc5 64) w == some ⟨1#9, 0#3, 0#1, 0#1, none⟩ && ramAfter (block .mbc5 64) w == some ramT) = true := by
  decide

/-- DB1, DB2. -/
theorem test_save_mapping :
    regsAfter (blockWith .mbc1 64 ⟨0x005#9, 0#3, 0#1, 0#1, none⟩) 0x31000000 =
      some ⟨0x005#9, 0#3, 0#1, 0#1, some 0x005#9⟩ ∧
    regsAfter (blockWith .mbc1 64 ⟨0x009#9, 0#3, 0#1, 0#1, some 0x005#9⟩) 0x31000000 =
      some ⟨0x009#9, 0#3, 0#1, 0#1, some 0x005#9⟩ := by
  decide

/-- DB3 to DB6. -/
theorem test_restore_mapping :
    regsAfter (blockWith .mbc1 64 ⟨0x009#9, 0#3, 0#1, 0#1, some 0x005#9⟩) 0x41000000 =
      some ⟨0x005#9, 0#3, 0#1, 0#1, none⟩ ∧
    regsAfter (blockWith .mbc1 64 ⟨0x009#9, 0#3, 0#1, 0#1, none⟩) 0x41000000 = some ⟨0x009#9, 0#3, 0#1, 0#1, none⟩ ∧
    regsAfter (blockWith .mbc5 64 ⟨0x134#9, 0#3, 0#1, 0#1, some 0x000#9⟩) 0x45000000 =
      some ⟨0x000#9, 0#3, 0#1, 0#1, none⟩ ∧
    regsAfter (blockWith .mbc1 64 ⟨0x001#9, 0#3, 0#1, 1#1, some 0x045#9⟩) 0x41000000 =
      some ⟨0x045#9, 0#3, 0#1, 1#1, none⟩ := by
  decide

/-- DB7, DB14, DB15: a ROM byte changes, no register does. -/
theorem test_dbgw_rom0 :
    romAfter (State.powerOn .mbc1 64 false 1 [] []) 0x510150CB = some [(0x0150, 0xCB#8)] ∧
    regsAfter (block .mbc1 64) 0x51210005 = some ⟨1#9, 0#3, 0#1, 0#1, none⟩ ∧
    regsAfter (block .mbc1 64) 0x5100000A = some ⟨1#9, 0#3, 0#1, 0#1, none⟩ := by
  decide

/-- DB8 to DB10. -/
theorem test_dbgw_romX :
    romAfter { State.powerOn .mbc1 64 false 1 [] [] with romb := 0x009#9 } 0x514000CB = some [(0x024000, 0xCB#8)] ∧
    romAfter { State.powerOn .mbc1 64 false 1 [] [] with romb := 0x03F#9 } 0x517FFF10 = some [(0x0FFFFF, 0x10#8)] ∧
    refusalAfter { State.powerOn .mbc1 64 false 1 [] [] with romb := 0x041#9 } 0x514000CB =
      some .romOffsetBeyondImage := by
  decide

/-- DB11 to DB13. -/
theorem test_dbgw_xram :
    ramAfter (State.powerOn .mbc1 64 false 1 [] []) 0x51A00066 = some [(0x0000, 0x66#8)] ∧
    ramAfter (State.powerOn .none 2 false 1 [] []) 0x50A00066 = some [(0x0000, 0x66#8)] ∧
    ramAfter { State.powerOn .mbc5 64 false 1 [] [] with ramb := 7#3 } 0x55BFFF67 = some [(0xFFFF, 0x67#8)] := by
  decide

/-- DB16, DB17. -/
theorem test_dbgw_out :
    ramAfter (block .mbc1 64) 0x51800001 = some ramT ∧ romAfter (block .mbc1 64) 0x51800001 = some romT ∧
    ramAfter (block .mbc1 64) 0x51C00001 = some ramT ∧ romAfter (block .mbc1 64) 0x51C00001 = some romT := by
  decide

/-- DB18, DB19, PO1. -/
theorem test_current_bank :
    answerAfter (blockWith .mbc1 64 ⟨0x045#9, 0#3, 0#1, 0#1, none⟩) 0x61000000 = some (.bank 0x045#9) ∧
    answerAfter (blockWith .mbc5 64 ⟨0x000#9, 0#3, 0#1, 0#1, none⟩) 0x65000000 = some (.bank 0x000#9) ∧
    answerAfter State.reset 0x60000000 = some (.bank 0x001#9) := by
  decide

/-- DB20. -/
theorem test_map_info :
    regsAfter (blockWith .mbc1 64 ⟨0x045#9, 0#3, 0#1, 0#1, none⟩) 0x71000000 = some ⟨0x045#9, 0#3, 0#1, 0#1, none⟩ := by
  decide

/-- RS1, RS2, RS4. -/
theorem test_reset :
    regsAfter (blockWith .mbc1 128 ⟨0x065#9, 3#3, 1#1, 1#1, none⟩) 0x21000000 = some ⟨0x001#9, 3#3, 1#1, 1#1, none⟩ ∧
    regsAfter (blockWith .mbc5 64 ⟨0x000#9, 7#3, 0#1, 0#1, none⟩) 0x25000000 = some ⟨0x001#9, 7#3, 0#1, 0#1, none⟩ ∧
    regsAfter (blockWith .mbc1 64 ⟨0x009#9, 0#3, 0#1, 0#1, some 0x009#9⟩) 0x21000000 =
      some ⟨0x001#9, 0#3, 0#1, 0#1, some 0x009#9⟩ := by
  decide

/-- A word that is no transaction is refused by the step (R94). -/
theorem test_step_refuses :
    refusalAfter State.reset 0x81000000 = some (.reservedOperation 0x8#4) ∧
    refusalAfter State.reset 0x13000000 = some (.reservedOperation 0xF#4) := by
  decide

/-- A byte equal to what an unlisted byte reads as is not listed, and a list stays sorted. -/
theorem test_memory_form :
    Memory.write [(1, 0x01#8), (5, 0x05#8)] 3 0x03#8 = [(1, 0x01#8), (3, 0x03#8), (5, 0x05#8)] ∧
    Memory.write [(1, 0x01#8), (5, 0x05#8)] 5 0x00#8 = [(1, 0x01#8)] ∧
    Memory.wf (Memory.write [(1, 0x01#8), (5, 0x05#8)] 1 0x0A#8) := by
  decide

/-! ### Load time -/

/-- Load-time parameters at the values 93_implementation_defined.md lists as customary (G1 to G4); no rule uses them. -/
def customary : LoadParams :=
  { offType := 0x147, offRamSize := 0x149, offChecksum := 0x14E, oversize72 := 0x52#8, oversize80 := 0x53#8,
    oversize96 := 0x54#8,
    typeMap := [(0x01#8, .mbc1 false false), (0x03#8, .mbc1 true true), (0x06#8, .mbc2 true),
      (0x1B#8, .mbc5 true true false)],
    saveExt := ['s', 'a', 'v'] }

/-- LT1, LT8, LT9 to LT12. -/
theorem test_bank_counts :
    bankCountOf customary 0x00#8 = some 2 ∧ bankCountOf customary 0x07#8 = some 256 ∧
    bankCountOf customary 0x52#8 = some 72 ∧ bankCountOf customary 0x53#8 = some 80 ∧
    bankCountOf customary 0x54#8 = some 96 ∧ bankCountOf customary 0x08#8 = none := by
  decide

/-- Type byte 0 is `NONE`, an assigned byte is its tag, any other is `UNSUPPORTED` (R193). -/
theorem test_type_bytes :
    familyOfType (cartTypeOf customary 0x00#8) = .none ∧ familyOfType (cartTypeOf customary 0x03#8) = .mbc1 ∧
    batteryOfType (cartTypeOf customary 0x03#8) = true ∧ batteryOfType (cartTypeOf customary 0x01#8) = false ∧
    familyOfType (cartTypeOf customary 0xFC#8) = .unsupported := by
  decide

/-- LT13 to LT17. -/
theorem test_persisted_lengths :
    persistedLength .mbc1 (ramBankCountOf 0x03#8) = 32768 ∧ persistedLength .mbc1 (ramBankCountOf 0x02#8) = 8192 ∧
    persistedLength .mbc5 (ramBankCountOf 0x04#8) = 8192 ∧ persistedLength .mbc2 (ramBankCountOf 0x03#8) = 512 ∧
    persistedLength .mbc5 (ramBankCountOf 0x03#8) = 32768 := by
  decide

/-- CK1, CK2, CK3 on an image of five bytes whose field is its last two. -/
theorem test_checksum :
    checksumValid { customary with offChecksum := 3 } [0x12#8, 0xFF#8, 0x01#8, 0x01#8, 0x12#8] = true ∧
    checksumValid { customary with offChecksum := 3 } [0x12#8, 0xFF#8, 0x01#8, 0x12#8, 0x01#8] = false ∧
    checksumValid { customary with offChecksum := 3 } [0x13#8, 0xFF#8, 0x01#8, 0x01#8, 0x12#8] = false := by
  decide

/-- R196: the extension is replaced, or appended where there is none. -/
theorem test_store_key :
    storeKey customary ['a', '.', 'b', '.', 'g', 'b'] = ['a', '.', 'b', '.', 's', 'a', 'v'] ∧
    storeKey customary ['a', 'b'] = ['a', 'b', '.', 's', 'a', 'v'] := by
  decide

/-- LT18 and R198: no battery, nothing saved; a store that cannot be written is reported. -/
theorem test_detach :
    detach (block .mbc1 64) true = ⟨none, []⟩ ∧
    detach { block .mbc1 64 with battery := true } false = ⟨none, [.persistSaveFailed]⟩ := by
  decide

/-- R214: a missing, short or unwritable store is a failed persistence load on a battery-backed block and none on
another; the bytes of an unwritable one are read like any other's (R197, D19). -/
theorem test_persist_load_fails :
    persistLoadFails true 2 .missing = true ∧ persistLoadFails true 2 (.present [0x5A#8]) = true ∧
    persistLoadFails true 2 (.unwritable [0x5A#8, 0x77#8]) = true ∧
    persistLoadFails true 2 (.present [0x5A#8, 0x77#8]) = false ∧
    persistLoadFails false 2 (.unwritable [0x5A#8, 0x77#8]) = false ∧
    ramInit true 2 0 (.unwritable [0x5A#8, 0x77#8, 0x11#8]) = [(0, 0x5A#8), (1, 0x77#8)] ∧
    ramInit false 2 0 (.unwritable [0x5A#8, 0x77#8]) = [] := by
  decide

/-- R198: a DETACH that saves nothing leaves the store as it was, and one that saves replaces it. -/
theorem test_store_after :
    storeAfter 0 (.present [0x5A#8]) (detach (block .mbc1 64) true) = .present [0x5A#8] ∧
    storeAfter 0 (.unwritable [0x5A#8]) ⟨some [0x77#8], []⟩ = .present [0x77#8] := by
  decide

/-! ### Witnesses: concrete states and operands that meet the hypotheses of each obligation -/

/-- A block with the given transactions issued. -/
def issued (s : State) (rs : List Request) : State := { s with pending := rs }

/-- Both ends of every window of the CPU space. -/
theorem test_witness_windows :
    (0x0000#16).toNat < 0x2000 ∧ (0x1FFF#16).toNat < 0x2000 ∧
    (0x0000#16).toNat < 0x4000 ∧ (0x3FFF#16).toNat < 0x4000 ∧
    (0x2000 ≤ (0x2000#16).toNat ∧ (0x2000#16).toNat < 0x4000) ∧ (0x2000 ≤ (0x3FFF#16).toNat ∧ (0x3FFF#16).toNat < 0x4000) ∧
    (0x4000 ≤ (0x4000#16).toNat ∧ (0x4000#16).toNat < 0x6000) ∧ (0x4000 ≤ (0x5FFF#16).toNat ∧ (0x5FFF#16).toNat < 0x6000) ∧
    (0x6000 ≤ (0x6000#16).toNat ∧ (0x6000#16).toNat < 0x8000) ∧ (0x6000 ≤ (0x7FFF#16).toNat ∧ (0x7FFF#16).toNat < 0x8000) ∧
    (0x4000 ≤ (0x4000#16).toNat ∧ (0x4000#16).toNat < 0x8000) ∧ (0x4000 ≤ (0x7FFF#16).toNat ∧ (0x7FFF#16).toNat < 0x8000) ∧
    (0x8000 ≤ (0x8000#16).toNat ∧ (0x8000#16).toNat < 0xA000) ∧ (0x8000 ≤ (0x9FFF#16).toNat ∧ (0x9FFF#16).toNat < 0xA000) ∧
    (0xA000 ≤ (0xA000#16).toNat ∧ (0xA000#16).toNat < 0xC000) ∧ (0xA000 ≤ (0xBFFF#16).toNat ∧ (0xBFFF#16).toNat < 0xC000) ∧
    0xC000 ≤ (0xC000#16).toNat ∧ 0xC000 ≤ (0xFFFF#16).toNat := by
  decide

theorem test_witness_EncodedTransactionsDecodeBack :
    (Instr.wrMbc2Romb 0x2100#16 0x00#8).wf = true ∧ (Instr.rdRom0Mbc5 0x3FFF#16).wf = true ∧
    (Instr.dbgwOutC 0xFFFF#16 0xFF#8).wf = true ∧ Instr.mapInfo.wf = true := by
  decide

theorem test_witness_EachWordSelectsExactlyOneRow :
    ((opOf 0x12210000#32).toNat < 8 ∧ familyOfCode (famOf 0x12210000#32) = some .mbc2) ∧
    ((opOf 0x7FFFFFFF#32).toNat < 8 ∧ familyOfCode (famOf 0x7FFFFFFF#32) = some .unsupported) := by
  decide

theorem test_witness_WordsOutsideTheCodesAreRefused :
    8 ≤ (opOf 0x81000000#32).toNat ∧ 8 ≤ (opOf 0xF3000000#32).toNat ∧
    ((opOf 0x73000000#32).toNat < 8 ∧ (famOf 0x73000000#32).toNat ∉ [0x0, 0x1, 0x2, 0x5, 0xF]) ∧
    ((opOf 0x0E000000#32).toNat < 8 ∧ (famOf 0x0E000000#32).toNat ∉ [0x0, 0x1, 0x2, 0x5, 0xF]) := by
  decide

theorem test_witness_StepRunsTheDecodedTransaction :
    (State.reset.withFetchWord 32 0x20000000).pending = [⟨0x2#4, 0x0000#16, 0x00#8⟩] ∧
    decode (packTW 0x2#4 (familyCode (State.reset.withFetchWord 32 0x20000000).fam) 0x0000#16 0x00#8) = .ok .reset := by
  decide

theorem test_witness_TheBlockIsIdleWithoutATransaction : State.reset.pending = [] := rfl

/-- The three cases: no transaction, a DEBUG_WRITE at the first offset beyond a 4-bank image, and one at the last offset
inside it. -/
theorem test_witness_EveryTransactionCompletesBarOne :
    8 ≤ (0x8#4).toNat ∧
    (0x4000 ≤ (0x4000#16).toNat ∧ (0x4000#16).toNat < 0x8000 ∧
      16384 * 4 ≤ (4#9).toNat * 16384 + ((0x4000#16).toNat - 0x4000)) ∧
    ¬ 16384 * 4 ≤ (3#9).toNat * 16384 + ((0x7FFF#16).toNat - 0x4000) ∧
    (issued (block .mbc1 4) [⟨0x5#4, 0x4000#16, 0x00#8⟩]).pending = [⟨0x5#4, 0x4000#16, 0x00#8⟩] := by
  decide

/-- Inside the image at its last byte and beyond it at the first offset. -/
theorem test_witness_ReadOfTheSwitchedWindowGivesTheMappedBank :
    ((3#9 : BitVec 9) ++ (0x7FFF#16).extractLsb' 0 14).toNat < 16384 * 4 ∧
    ¬ ((4#9 : BitVec 9) ++ (0x4000#16).extractLsb' 0 14).toNat < 16384 * 4 := by
  decide

theorem test_witness_EveryReadIsPure :
    [0x0000#16, 0x3FFF#16, 0x4000#16, 0x7FFF#16, 0xA000#16, 0xBFFF#16].all (fun a =>
      a.toNat < 0x4000 ∨ (0xA000 ≤ a.toNat ∧ a.toNat < 0xC000) ∨
        (0x4000 ≤ a.toNat ∧ a.toNat < 0x8000 ∧ (1#9).toNat * 16384 + (a.toNat - 0x4000) < 16384 * 64)) = true ∧
    (block .mbc1 64).fam ≠ .unsupported ∧ (block .mbc1 64).romb = 1#9 ∧
    SameBlock (issued (block .mbc1 64) [⟨0x0#4, 0x0123#16, 0x00#8⟩])
      { issued (block .mbc1 64) [⟨0x0#4, 0x0123#16, 0x00#8⟩] with draws := 7 } ∧
    (∃ t, step (issued (block .mbc1 64) [⟨0x0#4, 0x0123#16, 0x00#8⟩]) = .next t) ∧
    ∃ t, step { issued (block .mbc1 64) [⟨0x0#4, 0x0123#16, 0x00#8⟩] with draws := 7 } = .next t :=
  ⟨by decide, by decide, rfl, ⟨rfl, rfl, rfl, rfl, rfl, rfl, rfl, rfl, rfl, fun _ => rfl, fun _ => rfl⟩, ⟨_, rfl⟩, ⟨_, rfl⟩⟩

/-- One request for each row of the transition table, with both values of `MODE` and `RAM_EN`. -/
theorem test_witness_Mbc1WriteStepsFollowTheTransitionTable :
    ∀ a ∈ [0x1FFF#16, 0x2000#16, 0x3FFF#16, 0x4000#16, 0x5FFF#16, 0x6000#16, 0x7FFF#16, 0x8000#16, 0xA000#16, 0xBFFF#16,
        0xC000#16],
      ∀ m ∈ [0#1, 1#1],
        (issued (blockWith .mbc1 64 ⟨5#9, 2#3, m, m, none⟩) [⟨0x1#4, a, 0xFF#8⟩]).pending = [⟨0x1#4, a, 0xFF#8⟩] ∧
        (issued (blockWith .mbc1 64 ⟨5#9, 2#3, m, m, none⟩) [⟨0x1#4, a, 0xFF#8⟩]).fam = .mbc1 :=
  fun _ _ _ _ => ⟨rfl, rfl⟩

/-- Address bit 8 set at both ends of slice 1, and clear at both ends. -/
theorem test_witness_Mbc2BankSelectNeedsAddressBitEight :
    (0x2000 ≤ (0x2100#16).toNat ∧ (0x2100#16).toNat < 0x4000 ∧ (0x2100#16).toNat / 256 % 2 = 1) ∧
    (0x2000 ≤ (0x3FFF#16).toNat ∧ (0x3FFF#16).toNat < 0x4000 ∧ (0x3FFF#16).toNat / 256 % 2 = 1) ∧
    (0x2000 ≤ (0x2000#16).toNat ∧ (0x2000#16).toNat < 0x4000 ∧ (0x2000#16).toNat / 256 % 2 = 0) ∧
    (0x2000 ≤ (0x3EFF#16).toNat ∧ (0x3EFF#16).toNat < 0x4000 ∧ (0x3EFF#16).toNat / 256 % 2 = 0) := by
  decide

theorem test_witness_Mbc2RamStoresAreGated :
    (0xA000 ≤ (0xBFFF#16).toNat ∧ (0xBFFF#16).toNat < 0xC000) ∧ RegistersInv (block .mbc2 16) ∧
    (block .mbc2 16).fam = .mbc2 ∧ (blockWith .mbc2 16 ⟨1#9, 0#3, 1#1, 0#1, none⟩).ramEn = 1#1 := by
  decide

theorem test_witness_Mbc5Windows :
    (0x2000 ≤ (0x2FFF#16).toNat ∧ (0x2FFF#16).toNat < 0x3000) ∧ (0x3000 ≤ (0x3000#16).toNat ∧ (0x3000#16).toNat < 0x4000) ∧
    (block .mbc5 64).fam = .mbc5 := by
  decide

theorem test_witness_Mbc5TwoWritesSetTheNineBitBank :
    (issued (block .mbc5 64) [⟨0x1#4, 0x2FFF#16, 0xC8#8⟩, ⟨0x1#4, 0x3000#16, 0x01#8⟩]).pending =
      ⟨0x1#4, 0x2FFF#16, 0xC8#8⟩ :: ⟨0x1#4, 0x3000#16, 0x01#8⟩ :: [] ∧
    (issued (block .mbc5 64) [⟨0x1#4, 0x3000#16, 0x01#8⟩, ⟨0x1#4, 0x2FFF#16, 0xC8#8⟩]).pending =
      ⟨0x1#4, 0x3000#16, 0x01#8⟩ :: ⟨0x1#4, 0x2FFF#16, 0xC8#8⟩ :: [] :=
  ⟨rfl, rfl⟩

theorem test_witness_RamReadAfterWriteFollowsTheGate :
    (∀ f ∈ [Family.none, .mbc1, .mbc2, .mbc5], f ≠ .unsupported ∧
      (issued (blockWith f 2 ⟨1#9, 0#3, 1#1, 0#1, none⟩) [⟨0x1#4, 0xBFFF#16, 0x42#8⟩, ⟨0x0#4, 0xBFFF#16, 0x00#8⟩]).pending =
        ⟨0x1#4, 0xBFFF#16, 0x42#8⟩ :: ⟨0x0#4, 0xBFFF#16, 0x00#8⟩ :: []) ∧
    (block .mbc1 2).ramEn ≠ 1#1 := by
  decide

theorem test_witness_RestoreMappingMapsTheSavedBank :
    (block .mbc1 64).saved = none ∧ (blockWith .mbc1 64 ⟨9#9, 0#3, 0#1, 0#1, some 5#9⟩).saved = some 5#9 :=
  ⟨rfl, rfl⟩

/-- Each of the three clauses, with its next state. -/
theorem test_witness_OnlySaveAndRestoreMoveTheOverride :
    (∃ t, step (issued (block .mbc1 64) [⟨0x3#4, 0#16, 0#8⟩]) = .next t) ∧
    (∃ t, step (issued (blockWith .mbc1 64 ⟨9#9, 0#3, 0#1, 0#1, some 5#9⟩) [⟨0x4#4, 0#16, 0#8⟩]) = .next t) ∧
    ∃ t, step (issued (blockWith .mbc1 64 ⟨9#9, 0#3, 0#1, 0#1, some 5#9⟩) [⟨0x2#4, 0#16, 0#8⟩]) = .next t :=
  ⟨⟨_, rfl⟩, ⟨_, rfl⟩, ⟨_, rfl⟩⟩

/-- The last byte of a 64-bank image, and the first offset beyond it. -/
theorem test_witness_DebugWriteToTheSwitchedWindow :
    (63#9).toNat * 16384 + ((0x7FFF#16).toNat - 0x4000) < 16384 * (block .mbc1 64).bankCount ∧
    16384 * (block .mbc1 64).bankCount ≤ (64#9).toNat * 16384 + ((0x4000#16).toNat - 0x4000) := by
  decide

theorem test_witness_AnOverrideAlwaysReturnsTheProgramsBank :
    let xs : List Request := [⟨0x1#4, 0x2000#16, 0x09#8⟩, ⟨0x3#4, 0#16, 0#8⟩, ⟨0x0#4, 0x4000#16, 0#8⟩]
    (blockWith .mbc1 64 ⟨5#9, 0#3, 0#1, 0#1, none⟩).saved = none ∧ (∀ x ∈ xs, x.op ∈ [0x0#4, 0x1#4, 0x3#4]) ∧
    (issued (blockWith .mbc1 64 ⟨5#9, 0#3, 0#1, 0#1, none⟩) (⟨0x3#4, 0#16, 0#8⟩ :: xs ++ [⟨0x4#4, 0#16, 0#8⟩])).pending =
      ⟨0x3#4, 0#16, 0#8⟩ :: xs ++ [⟨0x4#4, 0#16, 0#8⟩] := by
  decide

theorem test_witness_RestoreAfterResetUndoesTheReset :
    (issued (blockWith .mbc1 64 ⟨9#9, 0#3, 0#1, 0#1, some 9#9⟩) [⟨0x2#4, 0#16, 0#8⟩, ⟨0x4#4, 0#16, 0#8⟩]).saved = some 9#9 ∧
    (issued (blockWith .mbc1 64 ⟨9#9, 0#3, 0#1, 0#1, some 9#9⟩) [⟨0x2#4, 0#16, 0#8⟩, ⟨0x4#4, 0#16, 0#8⟩]).pending =
      ⟨0x2#4, 0#16, 0#8⟩ :: ⟨0x4#4, 0#16, 0#8⟩ :: [] :=
  ⟨rfl, rfl⟩

theorem test_witness_OnlyDebugWriteChangesRom :
    (∃ t, step (issued (block .mbc1 64) [⟨0x1#4, 0x2000#16, 0x05#8⟩]) = .next t) ∧
    ∃ t, step (issued (block .mbc1 64) [⟨0x5#4, 0x0150#16, 0xCB#8⟩]) = .next t :=
  ⟨⟨_, rfl⟩, ⟨_, rfl⟩⟩

theorem test_witness_TheCpuPortCannotReachSavedOrRom :
    mayIssue .cpu 0x0#4 = true ∧ mayIssue .cpu 0x1#4 = true ∧ mayIssue .cpu 0x5#4 = false ∧
    ∃ t, step (issued (block .mbc1 64) [⟨0x1#4, 0x2000#16, 0x05#8⟩]) = .next t :=
  ⟨rfl, rfl, rfl, ⟨_, rfl⟩⟩

/-- Each register is changed by a step, `ROMB` in the last window of each MBC family, and `SAVED` by both its writers. -/
theorem test_witness_EachRegisterHasOnlyItsNamedWriters :
    (∃ t, step (issued (block .mbc1 64) [⟨0x1#4, 0x1FFF#16, 0x0A#8⟩]) = .next t ∧ t.ramEn ≠ 0#1) ∧
    (∃ t, step (issued (block .mbc1 64) [⟨0x1#4, 0x7FFF#16, 0x01#8⟩]) = .next t ∧ t.mode ≠ 0#1) ∧
    (∃ t, step (issued (block .mbc5 64) [⟨0x1#4, 0x5FFF#16, 0x07#8⟩]) = .next t ∧ t.ramb ≠ 0#3) ∧
    (∃ t, step (issued (block .mbc1 64) [⟨0x1#4, 0x5FFF#16, 0x01#8⟩]) = .next t ∧ t.romb ≠ 1#9) ∧
    (∃ t, step (issued (block .mbc2 64) [⟨0x1#4, 0x3FFF#16, 0x07#8⟩]) = .next t ∧ t.romb ≠ 1#9) ∧
    (∃ t, step (issued (block .mbc5 64) [⟨0x1#4, 0x3FFF#16, 0x01#8⟩]) = .next t ∧ t.romb ≠ 1#9) ∧
    (∃ t, step (issued (block .mbc1 64) [⟨0x3#4, 0#16, 0#8⟩]) = .next t ∧ t.saved ≠ none) ∧
    ∃ t, step (issued (blockWith .mbc1 64 ⟨9#9, 0#3, 0#1, 0#1, some 5#9⟩) [⟨0x4#4, 0#16, 0#8⟩]) = .next t ∧
      t.saved ≠ some 5#9 :=
  ⟨⟨_, rfl, by decide⟩, ⟨_, rfl, by decide⟩, ⟨_, rfl, by decide⟩, ⟨_, rfl, by decide⟩, ⟨_, rfl, by decide⟩,
    ⟨_, rfl, by decide⟩, ⟨_, rfl, by decide⟩, ⟨_, rfl, by decide⟩⟩

theorem test_witness_TheConfigurationNeverChanges : ∃ t, step State.reset = .next t := ⟨_, rfl⟩

/-- A block of 512 KiB that is not at power-on meets the invariant, and a step of it answers a next state. -/
theorem test_witness_EveryStepKeepsTheBlockInvariant :
    BlockInv { State.powerOn .mbc1 32 true 4 [(0x150, 0xCB#8)] [(0x7FFF, 0x5A#8)] with
      romb := 0x045#9, ramb := 3#3, ramEn := 1#1, mode := 1#1, saved := some 0x01F#9 } ∧
    ∃ t, step (issued (blockWith .mbc1 32 ⟨0x045#9, 3#3, 1#1, 1#1, some 0x01F#9⟩) [⟨0x1#4, 0xA000#16, 0x01#8⟩]) = .next t :=
  ⟨⟨⟨by decide, by decide, by decide⟩, by decide, by decide, by decide, by decide, by decide, by decide⟩, ⟨_, rfl⟩⟩

theorem test_witness_WindowsAliasOnlyThroughBankZero :
    romOffset0 0x0123#16 = romOffsetX 0#9 0x4123#16 ∧ romOffsetX 0x1FF#9 0x7FFF#16 = romOffsetX 0x1FF#9 0x7FFF#16 ∧
    ramOffset 7#3 0xBFFF#16 = ramOffset 7#3 0xBFFF#16 := by
  decide

/-- The code 0xFF stands in no row. -/
theorem test_witness_SizeCodesGiveTheTablesBankCounts :
    customary.Legal ∧ 8 ≤ (0xFF#8).toNat ∧
    0xFF#8 ∉ [customary.oversize72, customary.oversize80, customary.oversize96] := by
  decide

/-- An image of `16384 * n` bytes, all zero but for its type byte and its ROM size code. -/
def bigImage (type size : Byte) (n : Nat) : List Byte :=
  List.replicate 0x147 0x00#8 ++ type :: size :: List.replicate (16384 * n - 0x149) 0x00#8

theorem bigImage_length (type size : Byte) (n : Nat) (h : 1 ≤ n) : (bigImage type size n).length = 16384 * n := by
  unfold bigImage
  rw [List.length_append, List.length_cons, List.length_cons, List.length_replicate, List.length_replicate]
  omega

theorem bigImage_type (type size : Byte) (n : Nat) : imageByte (bigImage type size n) customary.offType = type := by
  unfold imageByte bigImage customary
  rw [List.getD_append_right _ _ _ _ (by rw [List.length_replicate]), List.length_replicate]
  rfl

theorem bigImage_size (type size : Byte) (n : Nat) :
    imageByte (bigImage type size n) (customary.offType + 1) = size := by
  unfold imageByte bigImage customary
  rw [List.getD_append_right _ _ _ _ (by rw [List.length_replicate]; decide), List.length_replicate]
  rfl

theorem test_witness_FatalLoadsCreateNoBlock :
    ([] : List Byte).length < 16384 ∧ (List.replicate 16383 0x00#8).length < 16384 ∧
    16384 ≤ (bigImage 0x00#8 0x08#8 1).length ∧
    bankCountOf customary (imageByte (bigImage 0x00#8 0x08#8 1) (customary.offType + 1)) = none := by
  refine ⟨by decide, by rw [List.length_replicate]; omega, by rw [bigImage_length _ _ _ (by decide)], ?_⟩
  rw [bigImage_size]
  decide

theorem test_witness_LoadGivesThePowerOnState :
    (bigImage 0x03#8 0x00#8 2).length = 16384 * 2 ∧
    bankCountOf customary (imageByte (bigImage 0x03#8 0x00#8 2) (customary.offType + 1)) = some 2 := by
  refine ⟨bigImage_length _ _ _ (by decide), ?_⟩
  rw [bigImage_size]
  decide

/-- Stores of exactly the persisted length, present and unwritable, and one a byte short, for that image. -/
theorem test_witness_LoadGivesThePowerOnState_stores :
    batteryOfType (cartTypeOf customary 0x03#8) = true ∧
    persistedLength (familyOfType (cartTypeOf customary 0x03#8)) 1 ≤ (List.replicate 8192 0x5A#8).length ∧
    (List.replicate 8191 0x5A#8).length < persistedLength (familyOfType (cartTypeOf customary 0x03#8)) 1 ∧
    (8191 < persistedLength (familyOfType (cartTypeOf customary 0x03#8)) 1 ∧
      persistedLength (familyOfType (cartTypeOf customary 0x03#8)) 1 ≤ 8192) := by
  rw [List.length_replicate, List.length_replicate]
  decide

/-- A battery-backed MBC1 image loads. -/
theorem test_witness_LoadedBlocksMeetTheInvariant :
    ∃ s reports, load customary 0 (bigImage 0x03#8 0x00#8 2) .missing = .loaded s reports ∧ s.battery = true := by
  have h : bankCountOf customary (imageByte (bigImage 0x03#8 0x00#8 2) (offRomSize customary)) = some 2 := by
    rw [offRomSize, bigImage_size]
    decide
  have l := bigImage_length 0x03#8 0x00#8 2 (by decide)
  unfold load
  rw [if_neg (by omega), h]
  dsimp only
  rw [if_pos l]
  refine ⟨_, _, rfl, ?_⟩
  show batteryOfType (cartTypeOf customary (imageByte (bigImage 0x03#8 0x00#8 2) customary.offType)) = true
  rw [bigImage_type]
  decide

theorem test_witness_ChangingOneByteBreaksTheChecksum :
    checksumValid { customary with offChecksum := 3 } [0x12#8, 0xFF#8, 0x01#8, 0x01#8, 0x12#8] = true ∧
    0 < [0x12#8, 0xFF#8, 0x01#8, 0x01#8, 0x12#8].length ∧ 0 ≠ 3 ∧ 0 ≠ 3 + 1 ∧
    [0x12#8, 0xFF#8, 0x01#8, 0x01#8, 0x12#8].getD 0 0#8 ≠ 0x13#8 := by
  decide

/-- The block detached can be the one loaded. -/
theorem test_witness_PersistedRamSurvivesAPowerCycle :
    ∃ s₀ s reports, load customary 0 (bigImage 0x03#8 0x00#8 2) .missing = .loaded s₀ reports ∧ s₀.battery = true ∧
      s = s₀.ramWrite 5 0x42#8 ∧ s.fam = s₀.fam ∧ s.battery = s₀.battery ∧ s.ramBankCount = s₀.ramBankCount := by
  obtain ⟨s₀, reports, h, hb⟩ := test_witness_LoadedBlocksMeetTheInvariant
  exact ⟨s₀, s₀.ramWrite 5 0x42#8, reports, h, hb, rfl, rfl, rfl, rfl⟩

end Sys2Proof.Tests
end

section
/-! PROOFS. READ (spec/40_read.md): the byte the rules give to a READ, said once for every family and window, and the
obligations O8, O10 and O13 from it. -/

namespace Sys2Proof.Machine

/-- The byte the rules give to a READ at `a` on a block of family `f`, and `none` where the result is `Undef8()`
(R110 to R114). `exec_decodeRead` ties it to the rows. -/
def readByte (f : Family) (a : Addr) (s : State) : Option Byte :=
  if f = .unsupported then none
  else
    match windowOf a with
    | .rom0 => some (s.romRead (romOffset0 a))
    | .romX => if romOffsetX s.romb a < s.romLen then some (s.romRead (romOffsetX s.romb a)) else none
    | .xram => some (s.ramRead (ramOffset s.ramb a))
    | .out8 => none
    | .outC => none

/-- The block after a READ that answers the given byte, or `Undef8()` where there is none. -/
def State.answerRead (s : State) : Option Byte → State
  | some b => s.answer (.byte b)
  | none => s.answerUndef8

variable {s u : State} {f : Family} {a : Addr}

theorem readRomX_eq_answerRead : readRomX a s = .next (s.answerRead
    (if romOffsetX s.romb a < s.romLen then some (s.romRead (romOffsetX s.romb a)) else none)) := by
  unfold readRomX
  split <;> rfl

/-- The row a READ selects answers the byte of the rules, on every family and at every address. -/
theorem exec_decodeRead (f : Family) (a : Addr) (s : State) :
    exec (decodeRead f a) s = .next (s.answerRead (readByte f a s)) := by
  cases f with
  | unsupported => rfl
  | none | mbc1 | mbc2 | mbc5 =>
    rw [readByte, if_neg (by decide), decodeRead]
    cases windowOf a with
    | romX => exact readRomX_eq_answerRead
    | rom0 | out8 | xram | outC => rfl

/-- A step on a pending READ takes it from the queue and answers the byte of the rules. -/
theorem step_read {r : Request} {rest : List Request} (hp : s.pending = r :: rest) (hop : r.op = 0x0#4) :
    step s = .next ((s.withPending rest).answerRead (readByte s.fam r.addr s)) := by
  have hd : decode (r.word s.fam) = .ok (decodeRead s.fam r.addr) := by
    rw [decode_word, hop]
    rfl
  unfold step
  rw [hp]
  simp only [hd]
  exact exec_decodeRead s.fam r.addr (s.withPending rest)

/-- An answer, given or free, is a byte, and changes nothing else but the count of free values. -/
theorem answerRead_frame (s : State) (o : Option Byte) :
    ∃ b, s.answerRead o = { s with output := .byte b, draws := (s.answerRead o).draws } := by
  cases o with
  | some b => exact ⟨b, rfl⟩
  | none => exact ⟨Config.undef8 s.draws, rfl⟩

theorem windowOf_rom0 (ha : a.toNat < 0x4000) : windowOf a = .rom0 := by
  obtain ⟨hrom0, -⟩ := windowOf_eq_iff a
  exact hrom0.2 ha

theorem windowOf_romX (hlo : 0x4000 ≤ a.toNat) (hhi : a.toNat < 0x8000) : windowOf a = .romX := by
  obtain ⟨-, hromX, -⟩ := windowOf_eq_iff a
  exact hromX.2 ⟨hlo, hhi⟩

theorem windowOf_xram (hlo : 0xA000 ≤ a.toNat) (hhi : a.toNat < 0xC000) : windowOf a = .xram := by
  obtain ⟨-, -, -, hxram, -⟩ := windowOf_eq_iff a
  exact hxram.2 ⟨hlo, hhi⟩

/-! The byte at the three windows of the cartridge, in the spec's own numbers. -/

theorem readByte_rom0 (hf : f ≠ .unsupported) (ha : a.toNat < 0x4000) :
    readByte f a s = some (s.romRead a.toNat) := by
  have hoff : romOffset0 a = a.toNat := by rw [romOffset0_eq, Nat.mod_eq_of_lt ha]
  simp only [readByte, if_neg hf, windowOf_rom0 ha, hoff]

theorem readByte_romX (hf : f ≠ .unsupported) (hlo : 0x4000 ≤ a.toNat) (hhi : a.toNat < 0x8000)
    (hin : s.romb.toNat * 16384 + (a.toNat - 0x4000) < 16384 * s.bankCount) :
    readByte f a s = some (s.romRead (s.romb.toNat * 16384 + (a.toNat - 0x4000))) := by
  simp only [readByte, if_neg hf, windowOf_romX hlo hhi]
  exact if_pos hin

theorem readByte_xram (hf : f ≠ .unsupported) (hlo : 0xA000 ≤ a.toNat) (hhi : a.toNat < 0xC000) :
    readByte f a s = some (s.ramRead (s.ramb.toNat * 8192 + (a.toNat - 0xA000))) := by
  have hoff : ramOffset s.ramb a = s.ramb.toNat * 8192 + (a.toNat - 0xA000) := by
    rw [ramOffset_eq]
    omega
  simp only [readByte, if_neg hf, windowOf_xram hlo hhi, hoff]

/-- The byte depends on what the spec gives the block alone, not on the queue, the last answer or the draws. -/
theorem readByte_of_sameBlock (h : SameBlock s u) : readByte f a u = readByte f a s := by
  obtain ⟨-, hcount, -, -, hromb, hramb, -, -, -, hrom, hram⟩ := h
  have hlen : u.romLen = s.romLen := congrArg (16384 * ·) hcount
  simp only [readByte, hlen, hromb, hramb, hrom, hram]

/-- The rows of the four families that map a cartridge: a READ word decodes to its family's row, and each row gives the
one answer `o` that the rules give on all four. -/
theorem read_rows {o : Option Byte} {i₀ i₁ i₂ i₅ : Instr} (d : Byte) (h₀ : decodeRead .none a = i₀)
    (h₁ : decodeRead .mbc1 a = i₁) (h₂ : decodeRead .mbc2 a = i₂) (h₅ : decodeRead .mbc5 a = i₅)
    (ho : ∀ f, f ≠ .unsupported → readByte f a s = o) :
    ∀ p ∈ [(0x0#4, i₀), (0x1#4, i₁), (0x2#4, i₂), (0x5#4, i₅)],
      decode (packTW 0x0#4 p.1 a d) = .ok p.2 ∧ exec p.2 s = .next (s.answerRead o) := by
  have row (f : Family) (hf : f ≠ .unsupported) : decode (packTW 0x0#4 (familyCode f) a d) = .ok (decodeRead f a) ∧
      exec (decodeRead f a) s = .next (s.answerRead o) :=
    ⟨decode_packTW 0x0#4 a d f, ho f hf ▸ exec_decodeRead f a s⟩
  subst h₀ h₁ h₂ h₅
  simp only [List.forall_mem_cons]
  exact ⟨row .none (by decide), row .mbc1 (by decide), row .mbc2 (by decide), row .mbc5 (by decide), by simp⟩

/-- Settles O13: a READ answers one byte of the rules or a free one (`answerRead_frame`), and the byte of the rules is a
function of what the spec gives the block (`readByte_of_sameBlock`). -/
theorem everyReadIsPure : Obligations.EveryReadIsPure := by
  unfold Obligations.EveryReadIsPure
  intro s r rest hp hop
  constructor
  · obtain ⟨b, hb⟩ := answerRead_frame (s.withPending rest) (readByte s.fam r.addr s)
    exact ⟨_, b, step_read hp hop, congrArg State.output hb, hb⟩
  · intro u rest' t t' hpu hsame hf hwin ht ht'
    have hfam : u.fam = s.fam := hsame.1
    obtain ⟨b, hb⟩ : ∃ b, readByte s.fam r.addr s = some b := by
      rcases hwin with hlt | ⟨hlo, hhi⟩ | ⟨hlo, hhi, hin⟩
      · exact ⟨_, readByte_rom0 hf hlt⟩
      · exact ⟨_, readByte_xram hf hlo hhi⟩
      · exact ⟨_, readByte_romX hf hlo hhi hin⟩
    rw [step_read hp hop, hb] at ht
    rw [step_read hpu hop, hfam, readByte_of_sameBlock hsame, hb] at ht'
    cases ht
    cases ht'
    rfl

/-- Settles O8: below 0x4000 the byte of the rules is the one of bank 0, on the row of each of the four families. -/
theorem readOfTheFixedWindowGivesBankZero : Obligations.ReadOfTheFixedWindowGivesBankZero := by
  unfold Obligations.ReadOfTheFixedWindowGivesBankZero
  intro s a d ha
  refine read_rows d ?_ ?_ ?_ ?_ fun _ hf => readByte_rom0 hf ha
  all_goals simp only [decodeRead, windowOf_rom0 ha]

/-- Settles O10: in the RAM window the byte of the rules is the one of the mapped RAM bank, and neither `RAM_EN` nor
`MODE` takes part in it. -/
theorem readOfTheRamWindowIsNotGated : Obligations.ReadOfTheRamWindowIsNotGated := by
  unfold Obligations.ReadOfTheRamWindowIsNotGated
  intro s a d hlo hhi
  refine read_rows d ?_ ?_ ?_ ?_ fun _ hf => readByte_xram hf hlo hhi
  all_goals simp only [decodeRead, windowOf_xram hlo hhi]

end Sys2Proof.Machine
end

section
/-! PROOFS. WRITE on `NONE` and `UNSUPPORTED` (spec/41_write_none.md): the row a WRITE word selects on any family, what
a no-op leaves, and the obligation O14 from them. -/

namespace Sys2Proof.Machine

/-- A WRITE word decodes to the row its family and address select (R85 to R88). -/
theorem decode_packTW_write (f : Family) (a : Addr) (d : Byte) :
    decode (packTW 0x1#4 (familyCode f) a d) = .ok (decodeWrite f a d) :=
  decode_packTW 0x1#4 a d f

/-- A no-op completes with no output and changes nothing else (R15). -/
theorem nop_eq (s : State) : nop s = .next { s with output := .none } := rfl

/-- On the two families without a controller, whatever row a WRITE selects is a no-op (R120, R121). -/
theorem exec_decodeWrite_of_noController {f : Family} (hf : f = .none ∨ f = .unsupported) (a : Addr) (d : Byte)
    (s : State) : exec (decodeWrite f a d) s = nop s := by
  rcases hf with rfl | rfl <;> rfl

/-- Settles O14: each of the two words selects its family's row, and that row is a no-op. -/
theorem writesOnNoneAndUnsupportedDoNothing : Obligations.WritesOnNoneAndUnsupportedDoNothing := by
  unfold Obligations.WritesOnNoneAndUnsupportedDoNothing
  intro s a d
  have row (f : Family) (hf : f = .none ∨ f = .unsupported) :
      decode (packTW 0x1#4 (familyCode f) a d) = .ok (decodeWrite f a d) ∧
      exec (decodeWrite f a d) s = .next { s with output := .none } :=
    ⟨decode_packTW_write f a d, (exec_decodeWrite_of_noController hf a d s).trans (nop_eq s)⟩
  simp only [List.forall_mem_cons]
  exact ⟨row .none (.inl rfl), row .unsupported (.inr rfl), by simp⟩

end Sys2Proof.Machine
end

section
/-! PROOFS. The slices of the CPU space by address, the offset of the RAM window in the spec's own numbers, and the two
stores into that window with their frame. -/

namespace Sys2Proof.Machine

variable {s : State} {a : Addr} {d : Byte}

theorem sliceOf_s0 (hhi : a.toNat < 0x2000) : sliceOf a = .s0 := by
  obtain ⟨hs0, -⟩ := sliceOf_eq_iff a
  exact hs0.2 hhi

theorem sliceOf_s1 (hlo : 0x2000 ≤ a.toNat) (hhi : a.toNat < 0x4000) : sliceOf a = .s1 := by
  obtain ⟨-, hs1, -⟩ := sliceOf_eq_iff a
  exact hs1.2 ⟨hlo, hhi⟩

theorem sliceOf_s2 (hlo : 0x4000 ≤ a.toNat) (hhi : a.toNat < 0x6000) : sliceOf a = .s2 := by
  obtain ⟨-, -, hs2, -⟩ := sliceOf_eq_iff a
  exact hs2.2 ⟨hlo, hhi⟩

theorem sliceOf_s3 (hlo : 0x6000 ≤ a.toNat) (hhi : a.toNat < 0x8000) : sliceOf a = .s3 := by
  obtain ⟨-, -, -, hs3, -⟩ := sliceOf_eq_iff a
  exact hs3.2 ⟨hlo, hhi⟩

theorem sliceOf_s4 (hlo : 0x8000 ≤ a.toNat) (hhi : a.toNat < 0xA000) : sliceOf a = .s4 := by
  obtain ⟨-, -, -, -, hs4, -⟩ := sliceOf_eq_iff a
  exact hs4.2 ⟨hlo, hhi⟩

theorem sliceOf_s5 (hlo : 0xA000 ≤ a.toNat) (hhi : a.toNat < 0xC000) : sliceOf a = .s5 := by
  obtain ⟨-, -, -, -, -, hs5, -⟩ := sliceOf_eq_iff a
  exact hs5.2 ⟨hlo, hhi⟩

/-- The range from 0xC000 up is two slices. -/
theorem sliceOf_s6_or_s7 (hlo : 0xC000 ≤ a.toNat) : sliceOf a = .s6 ∨ sliceOf a = .s7 := by
  obtain ⟨-, -, -, -, -, -, hs6, hs7⟩ := sliceOf_eq_iff a
  rcases Nat.lt_or_ge a.toNat 0xE000 with hlt | hge
  · exact .inl (hs6.2 ⟨hlo, hlt⟩)
  · exact .inr (hs7.2 hge)

/-- In the RAM window `addr[12:0]` is `addr − 0xA000` (R57). -/
theorem ramOffset_of_window (b : BitVec 3) (hlo : 0xA000 ≤ a.toNat) (hhi : a.toNat < 0xC000) :
    ramOffset b a = b.toNat * 8192 + (a.toNat - 0xA000) := by
  rw [ramOffset_eq]
  omega

/-- A store into the RAM window writes the one byte of the mapped bank and answers nothing. -/
theorem storeXram_eq (hlo : 0xA000 ≤ a.toNat) (hhi : a.toNat < 0xC000) :
    storeXram a d s = .next ((s.ramWrite (s.ramb.toNat * 8192 + (a.toNat - 0xA000)) d).answer .none) := by
  rw [storeXram, ramOffset_of_window s.ramb hlo hhi]

/-- The gate of RAM stores: a store when `RAM_EN` is 1, nothing when it is 0 (R59). -/
theorem storeXramGated_eq : storeXramGated a d s = if s.ramEn = 1#1 then storeXram a d s else nop s := by
  simp only [storeXramGated, ramWriteEnabled, beq_iff_eq]

/-- A gated store into the RAM window completes and leaves everything but RAM; RAM changes at the one offset when
`RAM_EN` is 1, and stays when it is 0. -/
theorem storeXramGated_window (hlo : 0xA000 ≤ a.toNat) (hhi : a.toNat < 0xC000) :
    ∃ t, storeXramGated a d s = .next t ∧ { t with ram := s.ram } = { s with output := .none } ∧
      if s.ramEn = 1#1 then
        ∀ off, t.ramRead off = if off = s.ramb.toNat * 8192 + (a.toNat - 0xA000) then d else s.ramRead off
      else t.ram = s.ram := by
  rw [storeXramGated_eq]
  by_cases hen : s.ramEn = 1#1
  · simp only [if_pos hen]
    exact ⟨_, storeXram_eq hlo hhi, rfl, fun off => State.ramWrite_ramRead s _ off d⟩
  · simp only [if_neg hen]
    exact ⟨_, nop_eq s, rfl, rfl⟩

end Sys2Proof.Machine
end

section
/-! PROOFS. WRITE on `MBC1` (spec/42_write_mbc1.md): each of the obligations O15 to O20 is the row the address selects
(R86) and what that row does. -/

namespace Sys2Proof.Machine

/-- The word of a WRITE on `MBC1` decodes to the row R86 selects by the address alone. -/
theorem decode_packTW_write_mbc1 {a : Addr} {d : Byte} {i : Instr} (hrow : decodeWriteMbc1 a d = i) :
    decode (packTW 0x1#4 0x1#4 a d) = .ok i :=
  hrow ▸ decode_packTW_write .mbc1 a d

/-- Settles O15: the latch takes the comparison of the low nibble (`ramEnableOf_eq`). -/
theorem mbc1RamEnableIsTheLowNibble : Obligations.Mbc1RamEnableIsTheLowNibble := by
  unfold Obligations.Mbc1RamEnableIsTheLowNibble
  intro s a d hhi
  constructor
  · exact decode_packTW_write_mbc1 (by simp only [decodeWriteMbc1, sliceOf_s0 hhi])
  · rw [← ramEnableOf_eq]
    rfl

/-- Settles O16: the masks of R132 are the concatenation of the kept bits and the forced field (`mbc1LowBank_eq`). -/
theorem mbc1LowBankBitsForceZeroToOne : Obligations.Mbc1LowBankBitsForceZeroToOne := by
  unfold Obligations.Mbc1LowBankBitsForceZeroToOne
  intro s a d hlo hhi
  constructor
  · exact decode_packTW_write_mbc1 (by simp only [decodeWriteMbc1, sliceOf_s1 hlo hhi])
  · rw [← mbc1LowBank_eq]
    rfl

/-- Settles O17, by the two values of `MODE`: one maps a RAM bank (`mbc1RamBank_eq`), the other the high bits of the ROM
bank (`mbc1HighBank_eq`). -/
theorem mbc1SecondaryBitsGoWhereTheModeSays : Obligations.Mbc1SecondaryBitsGoWhereTheModeSays := by
  unfold Obligations.Mbc1SecondaryBitsGoWhereTheModeSays
  intro s a d hlo hhi
  constructor
  · exact decode_packTW_write_mbc1 (by simp only [decodeWriteMbc1, sliceOf_s2 hlo hhi])
  · rw [← mbc1RamBank_eq, ← mbc1HighBank_eq]
    by_cases hmode : s.mode = 1#1
    · rw [if_pos hmode]
      exact if_pos (beq_iff_eq.2 hmode)
    · rw [if_neg hmode]
      exact if_neg (mt beq_iff_eq.1 hmode)

/-- Settles O18: the mode flag takes `data[0]` (`modeOf_eq`). -/
theorem mbc1ModeIsTheLowBit : Obligations.Mbc1ModeIsTheLowBit := by
  unfold Obligations.Mbc1ModeIsTheLowBit
  intro s a d hlo hhi
  constructor
  · exact decode_packTW_write_mbc1 (by simp only [decodeWriteMbc1, sliceOf_s3 hlo hhi])
  · rw [← modeOf_eq]
    rfl

/-- Settles O19: the row is the gated store into the RAM window. -/
theorem mbc1RamStoresAreGated : Obligations.Mbc1RamStoresAreGated := by
  unfold Obligations.Mbc1RamStoresAreGated
  intro s a d hlo hhi
  constructor
  · exact decode_packTW_write_mbc1 (by simp only [decodeWriteMbc1, sliceOf_s5 hlo hhi])
  · exact storeXramGated_window hlo hhi

/-- Settles O20: the rows of the slices outside the control windows and the RAM window are no-ops. -/
theorem mbc1WritesOutsideDoNothing : Obligations.Mbc1WritesOutsideDoNothing := by
  unfold Obligations.Mbc1WritesOutsideDoNothing
  intro s a d
  constructor
  · intro hlo hhi
    exact ⟨decode_packTW_write_mbc1 (by simp only [decodeWriteMbc1, sliceOf_s4 hlo hhi]), nop_eq s⟩
  · intro hlo
    have hrow : decodeWriteMbc1 a d = .wrMbc1NopC a d := by
      rcases sliceOf_s6_or_s7 hlo with hs | hs <;> simp only [decodeWriteMbc1, hs]
    exact ⟨decode_packTW_write_mbc1 hrow, nop_eq s⟩

end Sys2Proof.Machine
end

section
/-! PROOFS. WRITE on `MBC5` (spec/44_write_mbc5.md): the two halves of slice 1, which `addr[12]` tells apart (R88), what
a bank switch leaves, and the obligations O25, O26 and O28 from them. -/

namespace Sys2Proof.Machine

variable {a : Addr} {d : Byte}

/-- The word of a WRITE on `MBC5` decodes to the row R88 selects by the address alone. -/
theorem decode_packTW_write_mbc5 {i : Instr} (hrow : decodeWriteMbc5 a d = i) :
    decode (packTW 0x1#4 0x5#4 a d) = .ok i :=
  hrow ▸ decode_packTW_write .mbc5 a d

/-- `addr[12]` is clear in the lower half of slice 1. -/
theorem decodeWriteMbc5_low (hlo : 0x2000 ≤ a.toNat) (hhi : a.toNat < 0x3000) :
    decodeWriteMbc5 a d = .wrMbc5RombLo8 a d := by
  have hslice : sliceOf a = .s1 := sliceOf_s1 hlo (by omega)
  have hbit : ¬ addrBit12 a = true := by
    rw [addrBit12_iff]
    omega
  simp only [decodeWriteMbc5, hslice, if_neg hbit]

/-- `addr[12]` is set in the upper half of slice 1. -/
theorem decodeWriteMbc5_high (hlo : 0x3000 ≤ a.toNat) (hhi : a.toNat < 0x4000) :
    decodeWriteMbc5 a d = .wrMbc5RombHi a d := by
  have hslice : sliceOf a = .s1 := sliceOf_s1 (by omega) hhi
  have hbit : addrBit12 a = true := by
    rw [addrBit12_iff]
    omega
  simp only [decodeWriteMbc5, hslice, if_pos hbit]

/-- A ROM bank switch sets `ROMB`, answers nothing and changes nothing else (R26). -/
theorem switchRom_eq (b : BitVec 9) (s : State) : switchRom b s = .next { s with romb := b, output := .none } := rfl

/-- A RAM bank switch sets `RAMB`, answers nothing and changes nothing else (R27). -/
theorem switchRam_eq (b : BitVec 3) (s : State) : switchRam b s = .next { s with ramb := b, output := .none } := rfl

/-- Settles O25: the lower half of slice 1 switches the ROM bank to the kept bit 8 over the data (`mbc5LowBank_eq`). -/
theorem mbc5LowBankBitsAreTheByte : Obligations.Mbc5LowBankBitsAreTheByte := by
  unfold Obligations.Mbc5LowBankBitsAreTheByte
  intro s a d hlo hhi
  constructor
  · exact decode_packTW_write_mbc5 (decodeWriteMbc5_low hlo hhi)
  · change switchRom (mbc5LowBank s.romb d) s = _
    rw [mbc5LowBank_eq, switchRom_eq]

/-- Settles O26: the upper half of slice 1 switches the ROM bank to `data[0]` over the kept low bits
(`mbc5HighBank_eq`). -/
theorem mbc5HighBankBitIsDataBitZero : Obligations.Mbc5HighBankBitIsDataBitZero := by
  unfold Obligations.Mbc5HighBankBitIsDataBitZero
  intro s a d hlo hhi
  constructor
  · exact decode_packTW_write_mbc5 (decodeWriteMbc5_high hlo hhi)
  · change switchRom (mbc5HighBank s.romb d) s = _
    rw [mbc5HighBank_eq, switchRom_eq]

/-- Settles O28: slice 2 switches the RAM bank to the low three data bits (`mbc5RamBank_eq`). -/
theorem mbc5RamBankIsThreeBits : Obligations.Mbc5RamBankIsThreeBits := by
  unfold Obligations.Mbc5RamBankIsThreeBits
  intro s a d hlo hhi
  constructor
  · exact decode_packTW_write_mbc5 (by simp only [decodeWriteMbc5, sliceOf_s2 hlo hhi])
  · change switchRam (mbc5RamBank d) s = _
    rw [mbc5RamBank_eq, switchRam_eq]

end Sys2Proof.Machine
end

section
/-! PROOFS. The debug port and the override FSM (spec/45_debug_port.md): the row each operation code selects, what each
of those rows can change, and the obligation O34 from them. -/

namespace Sys2Proof.Machine

variable {s t : State} {f : Family} {a : Addr} {d : Byte}

/-- A step with a request pending runs the row its fields select, with the request taken from the queue. -/
theorem step_pending {r : Request} {rest : List Request} (hp : s.pending = r :: rest) (h : step s = .next t) :
    ∃ i, decodeFields r.op s.fam r.addr r.data = .ok i ∧ exec i (s.withPending rest) = .next t := by
  obtain ⟨hnil, -⟩ | ⟨r', rest', i, hp', -, hd, he⟩ := step_cases h
  · rw [hp] at hnil
    cases hnil
  · rw [hp] at hp'
    cases hp'
    exact ⟨i, hd, he⟩

/-- The eight operation codes that are transactions, and the row each selects (R81). -/
theorem decodeFields_ok {op : BitVec 4} {i : Instr} (h : decodeFields op f a d = .ok i) :
    (op = 0x0#4 ∧ i = decodeRead f a) ∨ (op = 0x1#4 ∧ i = decodeWrite f a d) ∨ (op = 0x2#4 ∧ i = .reset) ∨
    (op = 0x3#4 ∧ i = .saveMapping) ∨ (op = 0x4#4 ∧ i = .restoreMapping) ∨
    (op = 0x5#4 ∧ i = decodeDebugWrite a d) ∨ (op = 0x6#4 ∧ i = .currentBank) ∨ (op = 0x7#4 ∧ i = .mapInfo) := by
  have hcode (n : Nat) (hn : op.toNat = n) : op = BitVec.ofNat 4 n := by rw [← hn, BitVec.ofNat_toNat, BitVec.setWidth_eq]
  unfold decodeFields at h
  split at h
  case h_9 => cases h
  all_goals
    next hop =>
    cases h
    simp [hcode _ hop]

/-- `t` is `s` but for what a WRITE may change: the registers bar `SAVED`, the RAM array and the answer (R26, R27). -/
def WriteFrame (s t : State) : Prop :=
  t = { s with romb := t.romb, ramb := t.ramb, ramEn := t.ramEn, mode := t.mode, ram := t.ram, output := t.output }

theorem WriteFrame.saved (h : WriteFrame s t) : t.saved = s.saved := (congrArg State.saved h :)

theorem nop_writeFrame (h : nop s = .next t) : WriteFrame s t := by
  rw [nop_next h]
  rfl

theorem switchRom_writeFrame {b : BitVec 9} (h : switchRom b s = .next t) : WriteFrame s t := by
  rw [switchRom_next h]
  rfl

theorem switchRam_writeFrame {b : BitVec 3} (h : switchRam b s = .next t) : WriteFrame s t := by
  rw [switchRam_next h]
  rfl

theorem storeXram_writeFrame (h : storeXram a d s = .next t) : WriteFrame s t := by
  rw [storeXram_next h]
  rfl

theorem storeXramGated_writeFrame (h : storeXramGated a d s = .next t) : WriteFrame s t := by
  obtain ⟨-, rfl⟩ | ⟨-, rfl⟩ := storeXramGated_next h <;> rfl

theorem execWrMbc1Bank2_writeFrame (h : execWrMbc1Bank2 a d s = .next t) : WriteFrame s t := by
  unfold execWrMbc1Bank2 at h
  split at h
  · exact switchRam_writeFrame h
  · exact switchRom_writeFrame h

theorem exec_decodeWriteMbc1_writeFrame : exec (decodeWriteMbc1 a d) s = .next t → WriteFrame s t := by
  unfold decodeWriteMbc1
  cases sliceOf a with
  | s0 | s3 => rintro ⟨⟩; rfl
  | s1 => exact switchRom_writeFrame
  | s2 => exact execWrMbc1Bank2_writeFrame (a := a)
  | s5 => exact storeXramGated_writeFrame
  | s4 | s6 | s7 => exact nop_writeFrame

theorem exec_decodeWriteMbc2_writeFrame : exec (decodeWriteMbc2 a d) s = .next t → WriteFrame s t := by
  unfold decodeWriteMbc2
  cases sliceOf a with
  | s1 =>
    cases addrBit8 a with
    | true => exact switchRom_writeFrame
    | false => exact nop_writeFrame
  | s5 => exact storeXramGated_writeFrame
  | s0 | s2 | s3 | s4 | s6 | s7 => exact nop_writeFrame

theorem exec_decodeWriteMbc5_writeFrame : exec (decodeWriteMbc5 a d) s = .next t → WriteFrame s t := by
  unfold decodeWriteMbc5
  cases sliceOf a with
  | s1 => cases addrBit12 a <;> exact switchRom_writeFrame
  | s2 => exact switchRam_writeFrame
  | s5 => exact storeXram_writeFrame
  | s0 | s3 | s4 | s6 | s7 => exact nop_writeFrame

/-- Whatever row a WRITE selects, on every family. -/
theorem exec_decodeWrite_writeFrame (h : exec (decodeWrite f a d) s = .next t) : WriteFrame s t := by
  cases f with
  | none | unsupported => exact nop_writeFrame h
  | mbc1 => exact exec_decodeWriteMbc1_writeFrame h
  | mbc2 => exact exec_decodeWriteMbc2_writeFrame h
  | mbc5 => exact exec_decodeWriteMbc5_writeFrame h

/-- A DEBUG_WRITE that completes changes the two arrays alone and answers nothing; no register moves (R173 to R176). -/
theorem exec_decodeDebugWrite_frame :
    exec (decodeDebugWrite a d) s = .next t → t = { s with rom := t.rom, ram := t.ram, output := .none } := by
  unfold decodeDebugWrite
  cases windowOf a with
  | romX =>
    intro h
    change execDbgwRomX a d s = .next t at h
    unfold execDbgwRomX at h
    split at h <;> cases h
    rfl
  | rom0 | out8 | xram | outC => rintro ⟨⟩; rfl

/-- SAVE_MAPPING leaves in `SAVED` the bank saved first since the last restore (R171). -/
theorem savedAfterSave_eq (o : Option (BitVec 9)) (b : BitVec 9) : savedAfterSave o b = some (o.getD b) := by
  cases o <;> rfl

/-- Both rows of R170's table for SAVE_MAPPING. -/
theorem exec_saveMapping (s : State) :
    exec .saveMapping s = .next { s with saved := some (s.saved.getD s.romb), output := .none } := by
  rw [← savedAfterSave_eq]
  rfl

/-- Both rows of R170's table for RESTORE_MAPPING. -/
theorem exec_restoreMapping (s : State) :
    exec .restoreMapping s = .next { s with romb := s.saved.getD s.romb, saved := none, output := .none } := by
  obtain ⟨_, _, _, _, _, _, _, _, saved, _, _, _, _, _⟩ := s
  cases saved <;> rfl

/-- Settles O34, by the operation code: the two mapping rows are R170's table, and each of the other six rows has a
frame that `SAVED` lies in. -/
theorem onlySaveAndRestoreMoveTheOverride : Obligations.OnlySaveAndRestoreMoveTheOverride := by
  unfold Obligations.OnlySaveAndRestoreMoveTheOverride
  intro s t r rest hp hstep
  obtain ⟨i, hd, he⟩ := step_pending hp hstep
  refine ⟨fun hop => ?_, fun hop => ?_, fun hsave hrestore => ?_⟩
  · rw [hop] at hd
    cases hd
    rw [exec_saveMapping] at he
    cases he
    rfl
  · rw [hop] at hd
    cases hd
    rw [exec_restoreMapping] at he
    cases he
    rfl
  · obtain ⟨-, rfl⟩ | ⟨-, rfl⟩ | ⟨-, rfl⟩ | ⟨h3, -⟩ | ⟨h4, -⟩ | ⟨-, rfl⟩ | ⟨-, rfl⟩ | ⟨-, rfl⟩ := decodeFields_ok hd
    · rw [exec_decodeRead] at he
      cases he
      obtain ⟨b, hb⟩ := answerRead_frame (s.withPending rest) (readByte s.fam r.addr (s.withPending rest))
      exact (congrArg State.saved hb :)
    · exact (exec_decodeWrite_writeFrame he).saved
    · exact (switchRom_writeFrame he).saved
    · exact absurd h3 hsave
    · exact absurd h4 hrestore
    · exact (congrArg State.saved (exec_decodeDebugWrite_frame he) :)
    · cases he
      rfl
    · cases he
      rfl

end Sys2Proof.Machine
end

section
/-! PROOFS. The fatal results of LOAD (spec/46_load_time.md; R211, R212, R230): one equation for each of its two fatal
branches, and the obligation O55 from them. -/

namespace Sys2Proof.Machine

variable {p : LoadParams} {image : List Byte}

/-- An image that cannot hold the header ends the load before any header byte is read (R211). -/
theorem load_eq_imageTooShort (attempt : Nat) (store : Store) (hlen : image.length < 16384) :
    load p attempt image store = .fatal .imageTooShort :=
  if_pos hlen

/-- A ROM size code in no row of the table ends the load of an image that holds the header (R212). -/
theorem load_eq_unknownRomSize (attempt : Nat) (store : Store) (hlen : 16384 ≤ image.length)
    (hcode : bankCountOf p (imageByte image (offRomSize p)) = none) :
    load p attempt image store = .fatal (.unknownRomSize (imageByte image (offRomSize p))) := by
  unfold load
  rw [if_neg (Nat.not_lt.mpr hlen), hcode]

/-- Settles O55: its clauses are the two fatal branches of LOAD, with `OFF_ROMSIZE` written out (R190). -/
theorem fatalLoadsCreateNoBlock : Obligations.FatalLoadsCreateNoBlock := by
  unfold Obligations.FatalLoadsCreateNoBlock
  intro p attempt image store
  exact ⟨load_eq_imageTooShort attempt store, load_eq_unknownRomSize attempt store⟩

end Sys2Proof.Machine
end

section
/-! PROOFS. Decoding and encoding (spec/30_encoding.md): decoding undoes encoding on the well-formed rows, what is
decoded is well formed and its row of the opcode table is the one the word selects, and the obligations O1 to O4 from
them. -/

namespace Sys2Proof

open Sys2Proof.Machine

variable {op : BitVec 4} {f : Family} {a : Addr} {d : Byte} {i : Instr} {w : TW}

/-- The slices that make up each window of the table of R83, for the rows that name a window while WRITE decodes by
slice. -/
theorem sliceOf_of_windowOf :
    (windowOf a = .romX → sliceOf a = .s2 ∨ sliceOf a = .s3) ∧ (windowOf a = .out8 → sliceOf a = .s4) ∧
    (windowOf a = .xram → sliceOf a = .s5) ∧ (windowOf a = .outC → sliceOf a = .s6 ∨ sliceOf a = .s7) := by
  unfold windowOf
  cases sliceOf a <;> simp

theorem decode_packTW_read (f : Family) (a : Addr) (d : Byte) :
    decode (packTW 0x0#4 (familyCode f) a d) = .ok (decodeRead f a) :=
  decode_packTW 0x0#4 a d f

theorem decode_packTW_debugWrite (f : Family) (a : Addr) (d : Byte) :
    decode (packTW 0x5#4 (familyCode f) a d) = .ok (decodeDebugWrite a d) :=
  decode_packTW 0x5#4 a d f

/-- Settles O1, by the row: its word carries the row's operation and family, and the window or slice its address is
well formed for is the one the decoder selects the row by. -/
theorem encodedTransactionsDecodeBack : Obligations.EncodedTransactionsDecodeBack := by
  unfold Obligations.EncodedTransactionsDecodeBack
  intro f i hwf
  cases i with
  | rdRom0None a | rdRomXNone a | rdXramNone a | rdOut8None a | rdOutCNone a | rdRom0Mbc1 a | rdRomXMbc1 a
  | rdXramMbc1 a | rdOut8Mbc1 a | rdOutCMbc1 a | rdRom0Mbc2 a | rdRomXMbc2 a | rdXramMbc2 a | rdOut8Mbc2 a
  | rdOutCMbc2 a | rdRom0Mbc5 a | rdRomXMbc5 a | rdXramMbc5 a | rdOut8Mbc5 a | rdOutCMbc5 a =>
    have hwin := eq_of_beq hwf
    rw [encode, decode_packTW_read]
    simp only [decodeRead, hwin]
  | rdUnsup a => exact decode_packTW_read .unsupported a 0x00#8
  | wrNoneNop a d => exact decode_packTW_write .none a d
  | wrUnsupNop a d => exact decode_packTW_write .unsupported a d
  | wrMbc1Ramen a d | wrMbc1RombLo a d | wrMbc1Bank2 a d | wrMbc1Modesel a d | wrMbc2Nop0 a d | wrMbc5Ramb a d
  | wrMbc5Nop0 a d | wrMbc5Nop6 a d =>
    have hslice := eq_of_beq hwf
    rw [encode, decode_packTW_write]
    simp only [decodeWrite, decodeWriteMbc1, decodeWriteMbc2, decodeWriteMbc5, hslice]
  | wrMbc1Nop8 a d | wrMbc2Nop8 a d | wrMbc5Nop8 a d =>
    obtain ⟨-, hout8, -, -⟩ := sliceOf_of_windowOf (a := a)
    rw [encode, decode_packTW_write]
    simp only [decodeWrite, decodeWriteMbc1, decodeWriteMbc2, decodeWriteMbc5, hout8 (eq_of_beq hwf)]
  | wrMbc1Ramwr a d | wrMbc2Ramwr a d | wrMbc5Ramwr a d =>
    obtain ⟨-, -, hxram, -⟩ := sliceOf_of_windowOf (a := a)
    rw [encode, decode_packTW_write]
    simp only [decodeWrite, decodeWriteMbc1, decodeWriteMbc2, decodeWriteMbc5, hxram (eq_of_beq hwf)]
  | wrMbc1NopC a d | wrMbc2NopC a d | wrMbc5NopC a d =>
    obtain ⟨-, -, -, houtC⟩ := sliceOf_of_windowOf (a := a)
    rw [encode, decode_packTW_write]
    rcases houtC (eq_of_beq hwf) with hslice | hslice <;>
      simp only [decodeWrite, decodeWriteMbc1, decodeWriteMbc2, decodeWriteMbc5, hslice]
  | wrMbc2Nop4 a d =>
    obtain ⟨hromX, -, -, -⟩ := sliceOf_of_windowOf (a := a)
    rw [encode, decode_packTW_write]
    rcases hromX (eq_of_beq hwf) with hslice | hslice <;> simp only [decodeWrite, decodeWriteMbc2, hslice]
  | wrMbc2Romb a d | wrMbc5RombHi a d =>
    obtain ⟨hslice, hset⟩ := Bool.and_eq_true_iff.1 hwf
    rw [encode, decode_packTW_write]
    simp [decodeWrite, decodeWriteMbc2, decodeWriteMbc5, eq_of_beq hslice, hset]
  | wrMbc2NopA8 a d | wrMbc5RombLo8 a d =>
    obtain ⟨hslice, hclear⟩ := Bool.and_eq_true_iff.1 hwf
    rw [Bool.not_eq_true'] at hclear
    rw [encode, decode_packTW_write]
    simp [decodeWrite, decodeWriteMbc2, decodeWriteMbc5, eq_of_beq hslice, hclear]
  | reset | saveMapping | restoreMapping | currentBank | mapInfo => exact decode_packTW _ _ _ f
  | dbgwRom0 a d | dbgwRomX a d | dbgwXram a d | dbgwOut8 a d | dbgwOutC a d =>
    have hwin := eq_of_beq hwf
    rw [encode, decode_packTW_debugWrite]
    simp only [decodeDebugWrite, hwin]

/-! What the decoder gives is well formed: the address selected the row (R84 to R89). -/

theorem wf_decodeRead (f : Family) (a : Addr) : (decodeRead f a).wf = true := by
  cases f with
  | unsupported => rfl
  | none | mbc1 | mbc2 | mbc5 =>
    unfold decodeRead
    cases hwin : windowOf a <;> simp [Instr.wf, hwin]

theorem wf_decodeWrite (f : Family) (a : Addr) (d : Byte) : (decodeWrite f a d).wf = true := by
  cases f with
  | none | unsupported => rfl
  | mbc1 =>
    unfold decodeWrite decodeWriteMbc1
    cases hslice : sliceOf a <;> simp [Instr.wf, windowOf, hslice]
  | mbc2 =>
    unfold decodeWrite decodeWriteMbc2
    cases hslice : sliceOf a <;> cases hbit : addrBit8 a <;> simp [Instr.wf, windowOf, hslice, hbit]
  | mbc5 =>
    unfold decodeWrite decodeWriteMbc5
    cases hslice : sliceOf a <;> cases hbit : addrBit12 a <;> simp [Instr.wf, windowOf, hslice, hbit]

theorem wf_decodeDebugWrite (a : Addr) (d : Byte) : (decodeDebugWrite a d).wf = true := by
  unfold decodeDebugWrite
  cases hwin : windowOf a <;> simp [Instr.wf, hwin]

/-! What the encoder gives for a decoded row: the operation and the family it was decoded by, and a data byte of 0 for a
READ. -/

theorem encode_decodeRead (g f : Family) (a : Addr) :
    encode g (decodeRead f a) = packTW 0x0#4 (familyCode f) a 0x00#8 := by
  cases f with
  | unsupported => rfl
  | none | mbc1 | mbc2 | mbc5 =>
    unfold decodeRead
    cases windowOf a <;> rfl

theorem encode_decodeWrite (g f : Family) (a : Addr) (d : Byte) :
    encode g (decodeWrite f a d) = packTW 0x1#4 (familyCode f) a d := by
  cases f with
  | none | unsupported => rfl
  | mbc1 =>
    unfold decodeWrite decodeWriteMbc1
    cases sliceOf a <;> rfl
  | mbc2 =>
    unfold decodeWrite decodeWriteMbc2
    cases sliceOf a <;> cases addrBit8 a <;> rfl
  | mbc5 =>
    unfold decodeWrite decodeWriteMbc5
    cases sliceOf a <;> cases addrBit12 a <;> rfl

theorem encode_decodeDebugWrite (g : Family) (a : Addr) (d : Byte) :
    encode g (decodeDebugWrite a d) = packTW 0x5#4 (familyCode g) a d := by
  unfold decodeDebugWrite
  cases windowOf a <;> rfl

/-- The per-instruction family `RowMatch`, for every transaction. -/
theorem rowMatch : ∀ i, Laws.RowMatch.Statement i
  | .rdRom0None a => Laws.RowMatch.rdRom0None a
  | .rdRomXNone a => Laws.RowMatch.rdRomXNone a
  | .rdXramNone a => Laws.RowMatch.rdXramNone a
  | .rdOut8None a => Laws.RowMatch.rdOut8None a
  | .rdOutCNone a => Laws.RowMatch.rdOutCNone a
  | .rdRom0Mbc1 a => Laws.RowMatch.rdRom0Mbc1 a
  | .rdRomXMbc1 a => Laws.RowMatch.rdRomXMbc1 a
  | .rdXramMbc1 a => Laws.RowMatch.rdXramMbc1 a
  | .rdOut8Mbc1 a => Laws.RowMatch.rdOut8Mbc1 a
  | .rdOutCMbc1 a => Laws.RowMatch.rdOutCMbc1 a
  | .rdRom0Mbc2 a => Laws.RowMatch.rdRom0Mbc2 a
  | .rdRomXMbc2 a => Laws.RowMatch.rdRomXMbc2 a
  | .rdXramMbc2 a => Laws.RowMatch.rdXramMbc2 a
  | .rdOut8Mbc2 a => Laws.RowMatch.rdOut8Mbc2 a
  | .rdOutCMbc2 a => Laws.RowMatch.rdOutCMbc2 a
  | .rdRom0Mbc5 a => Laws.RowMatch.rdRom0Mbc5 a
  | .rdRomXMbc5 a => Laws.RowMatch.rdRomXMbc5 a
  | .rdXramMbc5 a => Laws.RowMatch.rdXramMbc5 a
  | .rdOut8Mbc5 a => Laws.RowMatch.rdOut8Mbc5 a
  | .rdOutCMbc5 a => Laws.RowMatch.rdOutCMbc5 a
  | .rdUnsup a => Laws.RowMatch.rdUnsup a
  | .wrNoneNop a d => Laws.RowMatch.wrNoneNop a d
  | .wrUnsupNop a d => Laws.RowMatch.wrUnsupNop a d
  | .wrMbc1Ramen a d => Laws.RowMatch.wrMbc1Ramen a d
  | .wrMbc1RombLo a d => Laws.RowMatch.wrMbc1RombLo a d
  | .wrMbc1Bank2 a d => Laws.RowMatch.wrMbc1Bank2 a d
  | .wrMbc1Modesel a d => Laws.RowMatch.wrMbc1Modesel a d
  | .wrMbc1Ramwr a d => Laws.RowMatch.wrMbc1Ramwr a d
  | .wrMbc1Nop8 a d => Laws.RowMatch.wrMbc1Nop8 a d
  | .wrMbc1NopC a d => Laws.RowMatch.wrMbc1NopC a d
  | .wrMbc2Romb a d => Laws.RowMatch.wrMbc2Romb a d
  | .wrMbc2NopA8 a d => Laws.RowMatch.wrMbc2NopA8 a d
  | .wrMbc2Ramwr a d => Laws.RowMatch.wrMbc2Ramwr a d
  | .wrMbc2Nop0 a d => Laws.RowMatch.wrMbc2Nop0 a d
  | .wrMbc2Nop4 a d => Laws.RowMatch.wrMbc2Nop4 a d
  | .wrMbc2Nop8 a d => Laws.RowMatch.wrMbc2Nop8 a d
  | .wrMbc2NopC a d => Laws.RowMatch.wrMbc2NopC a d
  | .wrMbc5RombLo8 a d => Laws.RowMatch.wrMbc5RombLo8 a d
  | .wrMbc5RombHi a d => Laws.RowMatch.wrMbc5RombHi a d
  | .wrMbc5Ramb a d => Laws.RowMatch.wrMbc5Ramb a d
  | .wrMbc5Ramwr a d => Laws.RowMatch.wrMbc5Ramwr a d
  | .wrMbc5Nop0 a d => Laws.RowMatch.wrMbc5Nop0 a d
  | .wrMbc5Nop6 a d => Laws.RowMatch.wrMbc5Nop6 a d
  | .wrMbc5Nop8 a d => Laws.RowMatch.wrMbc5Nop8 a d
  | .wrMbc5NopC a d => Laws.RowMatch.wrMbc5NopC a d
  | .reset => Laws.RowMatch.reset
  | .saveMapping => Laws.RowMatch.saveMapping
  | .restoreMapping => Laws.RowMatch.restoreMapping
  | .dbgwRom0 a d => Laws.RowMatch.dbgwRom0 a d
  | .dbgwRomX a d => Laws.RowMatch.dbgwRomX a d
  | .dbgwXram a d => Laws.RowMatch.dbgwXram a d
  | .dbgwOut8 a d => Laws.RowMatch.dbgwOut8 a d
  | .dbgwOutC a d => Laws.RowMatch.dbgwOutC a d
  | .currentBank => Laws.RowMatch.currentBank
  | .mapInfo => Laws.RowMatch.mapInfo

/-- A masked word is made of the masked fields. -/
theorem and_eq_packTW (w m : TW) :
    w &&& m = packTW (opOf w &&& opOf m) (famOf w &&& famOf m) (addrOf w &&& addrOf m) (dataOf w &&& dataOf m) := by
  rw [← packTW_fields (w &&& m)]
  simp only [opOf, famOf, addrOf, dataOf, BitVec.extractLsb'_and]

/-- No row of the table looks at the data byte. -/
theorem dataOf_mask : ∀ r ∈ opcodeTable, dataOf r.mask = 0x00#8 := by
  decide

theorem selects_packTW_data {r : TableRow} {fam : BitVec 4} (hr : r ∈ opcodeTable) (d e : Byte) :
    r.selects (packTW op fam a d) = r.selects (packTW op fam a e) := by
  simp only [TableRow.selects, and_eq_packTW _ r.mask, opOf_packTW, famOf_packTW, addrOf_packTW, dataOf_mask r hr,
    BitVec.and_zero]

/-- A row whose mask keeps the operation alone is selected by every word of that operation. -/
theorem selects_of_operation {fam : BitVec 4} (bits : TW) (hr : ⟨bits, 0xF0000000#32⟩ ∈ opcodeTable)
    (hop : op = opOf bits) (hzero : famOf bits = 0#4 ∧ addrOf bits = 0#16 ∧ dataOf bits = 0#8) :
    ⟨bits, 0xF0000000#32⟩ ∈ opcodeTable ∧ TableRow.selects ⟨bits, 0xF0000000#32⟩ (packTW op fam a d) = true := by
  obtain ⟨hfam, haddr, hdata⟩ := hzero
  exact Laws.RowMatch.of_fields bits 0xF0000000#32 hr (BitVec.and_allOnes.trans hop) (hfam ▸ BitVec.and_zero)
    (haddr ▸ BitVec.and_zero) (hdata ▸ BitVec.and_zero)

/-- The word a row was decoded from selects that row of the table, whatever the fields the row ignores hold. -/
theorem selects_of_decodeFields (h : decodeFields op f a d = .ok i) :
    i.tableRow ∈ opcodeTable ∧ i.tableRow.selects (packTW op (familyCode f) a d) = true := by
  obtain ⟨rfl, rfl⟩ | ⟨rfl, rfl⟩ | ⟨rfl, rfl⟩ | ⟨rfl, rfl⟩ | ⟨rfl, rfl⟩ | ⟨rfl, rfl⟩ | ⟨rfl, rfl⟩ | ⟨rfl, rfl⟩ :=
    decodeFields_ok h
  · obtain ⟨hmem, hsel⟩ := rowMatch (decodeRead f a) f (wf_decodeRead f a)
    rw [encode_decodeRead, selects_packTW_data hmem _ d] at hsel
    exact ⟨hmem, hsel⟩
  · exact encode_decodeWrite f f a d ▸ rowMatch (decodeWrite f a d) f (wf_decodeWrite f a d)
  · exact selects_of_operation 0x20000000#32 (by decide) (by decide) (by decide)
  · exact selects_of_operation 0x30000000#32 (by decide) (by decide) (by decide)
  · exact selects_of_operation 0x40000000#32 (by decide) (by decide) (by decide)
  · exact encode_decodeDebugWrite f a d ▸ rowMatch (decodeDebugWrite a d) f (wf_decodeDebugWrite a d)
  · exact selects_of_operation 0x60000000#32 (by decide) (by decide) (by decide)
  · exact selects_of_operation 0x70000000#32 (by decide) (by decide) (by decide)

theorem wf_of_decodeFields (h : decodeFields op f a d = .ok i) : i.wf = true := by
  obtain ⟨-, rfl⟩ | ⟨-, rfl⟩ | ⟨-, rfl⟩ | ⟨-, rfl⟩ | ⟨-, rfl⟩ | ⟨-, rfl⟩ | ⟨-, rfl⟩ | ⟨-, rfl⟩ := decodeFields_ok h
  · exact wf_decodeRead f a
  · exact wf_decodeWrite f a d
  · rfl
  · rfl
  · rfl
  · exact wf_decodeDebugWrite a d
  · rfl
  · rfl

/-- An operation code below 0x8 is a transaction on every family. -/
theorem decodeFields_defined (hop : op.toNat < 8) : ∃ i, decodeFields op f a d = .ok i := by
  have hcode : ∀ o : BitVec 4, o.toNat < 8 → o = 0x0#4 ∨ o = 0x1#4 ∨ o = 0x2#4 ∨ o = 0x3#4 ∨ o = 0x4#4 ∨ o = 0x5#4 ∨
      o = 0x6#4 ∨ o = 0x7#4 := by decide
  rcases hcode op hop with rfl | rfl | rfl | rfl | rfl | rfl | rfl | rfl <;> exact ⟨_, rfl⟩

/-- Two rows of the table differ on a bit that both of them look at (R91). -/
theorem opcodeTable_disjoint :
    ∀ r ∈ opcodeTable, ∀ q ∈ opcodeTable, r.bits &&& q.mask = q.bits &&& r.mask → r = q := by
  decide

/-- A word selects at most one row of the table. -/
theorem selects_unique {r q : TableRow} (hr : r ∈ opcodeTable) (hq : q ∈ opcodeTable) (hrw : r.selects w = true)
    (hqw : q.selects w = true) : r = q := by
  refine opcodeTable_disjoint r hr q hq ?_
  rw [← eq_of_beq hrw, ← eq_of_beq hqw]
  ac_rfl

/-- Settles O2: a defined operation decodes to a well-formed row, the word selects that row, and no two rows of the
table are selected by one word (`opcodeTable_disjoint`). -/
theorem eachWordSelectsExactlyOneRow : Obligations.EachWordSelectsExactlyOneRow := by
  unfold Obligations.EachWordSelectsExactlyOneRow
  intro w f hop hfam
  obtain ⟨i, hi⟩ : ∃ i, decodeFields (opOf w) f (addrOf w) (dataOf w) = .ok i := decodeFields_defined hop
  have hcode : familyCode f = famOf w := familyCode_of_familyOfCode (famOf w) f hfam
  obtain ⟨hmem, hsel⟩ := selects_of_decodeFields hi
  rw [hcode, packTW_fields] at hsel
  refine ⟨i, ?_, wf_of_decodeFields hi, hmem, hsel, fun r hr hrw => selects_unique hr hmem hrw hsel⟩
  rw [decode, hfam]
  exact hi

/-- Settles O3: a reserved operation is refused whether or not the family is known, and an unknown family is refused for
every defined operation. -/
theorem wordsOutsideTheCodesAreRefused : Obligations.WordsOutsideTheCodesAreRefused := by
  unfold Obligations.WordsOutsideTheCodesAreRefused
  intro w
  constructor
  · intro hop
    unfold decode
    cases familyOfCode (famOf w) with
    | some f => exact decodeFields_reserved (opOf w) (addrOf w) (dataOf w) f hop
    | none => exact if_pos hop
  · intro hop hfam
    have hnone : familyOfCode (famOf w) = none := by
      rw [familyOfCode_eq_none_iff]
      refine ⟨?_, ?_, ?_, ?_, ?_⟩
      all_goals
        intro h
        rw [h] at hfam
        exact hfam (by decide)
    rw [decode, hnone]
    exact if_neg (Nat.not_le.mpr hop)

/-- Settles O4: each word is a concrete number. -/
theorem listedWordsDecode : Obligations.ListedWordsDecode := by
  unfold Obligations.ListedWordsDecode
  decide

end Sys2Proof
end

section
/-! PROOFS. What one step can do, said once: which row runs, and the effects a WRITE, a DEBUG_WRITE and a step can have.
Every statement about the whole machine is a case analysis of these. -/

namespace Sys2Proof.Machine

variable {s t : State} {f : Family} {a : Addr} {d : Byte}

/-- A step with a request pending is its row, run on the state with the request taken from the queue. -/
theorem step_eq_exec {r : Request} {rest : List Request} {i : Instr} (hp : s.pending = r :: rest)
    (hd : decodeFields r.op s.fam r.addr r.data = .ok i) : step s = exec i (s.withPending rest) := by
  rw [← decode_word] at hd
  unfold step
  rw [hp]
  simp only [hd]

/-- Two values of a one-bit register. -/
theorem bit_cases (v : BitVec 1) : v = 0#1 ∨ v = 1#1 := by
  revert v
  decide

/-- What a WRITE of `d` at `a` can leave of a block `s` of family `f`, with the conditions under which it may leave
that: the rows of R120, R121, R131 to R136, R151 to R154 and R161 to R165, the no-ops of all families as one. -/
inductive WriteEffect (f : Family) (a : Addr) (d : Byte) (s : State) : State → Prop where
  | nop : WriteEffect f a d s (s.answer .none)
  | mbc1RamEnable (hf : f = .mbc1) (hhi : a.toNat < 0x2000) :
      WriteEffect f a d s ((s.setRamEn (ramEnableOf d)).answer .none)
  | mbc1Mode (hf : f = .mbc1) (hlo : 0x6000 ≤ a.toNat) (hhi : a.toNat < 0x8000) :
      WriteEffect f a d s ((s.setMode (modeOf d)).answer .none)
  | mbc1LowBank (hf : f = .mbc1) (hlo : 0x2000 ≤ a.toNat) (hhi : a.toNat < 0x4000) :
      WriteEffect f a d s ((s.mapRom (mbc1LowBank s.romb d)).answer .none)
  | mbc1HighBank (hf : f = .mbc1) (hlo : 0x4000 ≤ a.toNat) (hhi : a.toNat < 0x6000) (hmode : s.mode = 0#1) :
      WriteEffect f a d s ((s.mapRom (mbc1HighBank s.romb d)).answer .none)
  | mbc1RamBank (hf : f = .mbc1) (hlo : 0x4000 ≤ a.toNat) (hhi : a.toNat < 0x6000) (hmode : s.mode = 1#1) :
      WriteEffect f a d s ((s.mapRam (mbc1RamBank d)).answer .none)
  | mbc2Bank (hf : f = .mbc2) (hlo : 0x2000 ≤ a.toNat) (hhi : a.toNat < 0x4000) (hbit : a.toNat / 256 % 2 = 1) :
      WriteEffect f a d s ((s.mapRom (mbc2Bank d)).answer .none)
  | mbc5LowBank (hf : f = .mbc5) (hlo : 0x2000 ≤ a.toNat) (hhi : a.toNat < 0x3000) :
      WriteEffect f a d s ((s.mapRom (mbc5LowBank s.romb d)).answer .none)
  | mbc5HighBank (hf : f = .mbc5) (hlo : 0x3000 ≤ a.toNat) (hhi : a.toNat < 0x4000) :
      WriteEffect f a d s ((s.mapRom (mbc5HighBank s.romb d)).answer .none)
  | mbc5RamBank (hf : f = .mbc5) (hlo : 0x4000 ≤ a.toNat) (hhi : a.toNat < 0x6000) :
      WriteEffect f a d s ((s.mapRam (mbc5RamBank d)).answer .none)
  | store (hlo : 0xA000 ≤ a.toNat) (hhi : a.toNat < 0xC000)
      (hgate : f = .mbc5 ∨ (f = .mbc1 ∨ f = .mbc2) ∧ s.ramEn = 1#1) :
      WriteEffect f a d s ((s.ramWrite (ramOffset s.ramb a) d).answer .none)

theorem storeXramGated_effect (hlo : 0xA000 ≤ a.toNat) (hhi : a.toNat < 0xC000) (hf : f = .mbc1 ∨ f = .mbc2) :
    ∃ t, storeXramGated a d s = .next t ∧ WriteEffect f a d s t := by
  rw [storeXramGated_eq]
  by_cases hen : s.ramEn = 1#1
  · exact ⟨_, if_pos hen, .store hlo hhi (.inr ⟨hf, hen⟩)⟩
  · exact ⟨_, if_neg hen, .nop⟩

theorem exec_decodeWriteMbc1_effect (a : Addr) (d : Byte) (s : State) :
    ∃ t, exec (decodeWriteMbc1 a d) s = .next t ∧ WriteEffect .mbc1 a d s t := by
  obtain ⟨hs0, hs1, hs2, hs3, -, hs5, -⟩ := sliceOf_eq_iff a
  unfold decodeWriteMbc1
  cases hslice : sliceOf a with
  | s0 => exact ⟨_, rfl, .mbc1RamEnable rfl (hs0.1 hslice)⟩
  | s1 =>
    obtain ⟨hlo, hhi⟩ := hs1.1 hslice
    exact ⟨_, rfl, .mbc1LowBank rfl hlo hhi⟩
  | s2 =>
    obtain ⟨hlo, hhi⟩ := hs2.1 hslice
    change ∃ t, (if largeRamMode s.mode then switchRam (mbc1RamBank d) s
      else switchRom (mbc1HighBank s.romb d) s) = .next t ∧ _
    rcases bit_cases s.mode with hmode | hmode <;> rw [hmode]
    · exact ⟨_, rfl, .mbc1HighBank rfl hlo hhi hmode⟩
    · exact ⟨_, rfl, .mbc1RamBank rfl hlo hhi hmode⟩
  | s3 =>
    obtain ⟨hlo, hhi⟩ := hs3.1 hslice
    exact ⟨_, rfl, .mbc1Mode rfl hlo hhi⟩
  | s5 =>
    obtain ⟨hlo, hhi⟩ := hs5.1 hslice
    exact storeXramGated_effect hlo hhi (.inl rfl)
  | s4 | s6 | s7 => exact ⟨_, rfl, .nop⟩

theorem exec_decodeWriteMbc2_effect (a : Addr) (d : Byte) (s : State) :
    ∃ t, exec (decodeWriteMbc2 a d) s = .next t ∧ WriteEffect .mbc2 a d s t := by
  obtain ⟨-, hs1, -, -, -, hs5, -⟩ := sliceOf_eq_iff a
  unfold decodeWriteMbc2
  cases hslice : sliceOf a with
  | s1 =>
    obtain ⟨hlo, hhi⟩ := hs1.1 hslice
    cases hbit : addrBit8 a with
    | true => exact ⟨_, rfl, .mbc2Bank rfl hlo hhi ((addrBit8_iff a).1 hbit)⟩
    | false => exact ⟨_, rfl, .nop⟩
  | s5 =>
    obtain ⟨hlo, hhi⟩ := hs5.1 hslice
    exact storeXramGated_effect hlo hhi (.inr rfl)
  | s0 | s2 | s3 | s4 | s6 | s7 => exact ⟨_, rfl, .nop⟩

theorem exec_decodeWriteMbc5_effect (a : Addr) (d : Byte) (s : State) :
    ∃ t, exec (decodeWriteMbc5 a d) s = .next t ∧ WriteEffect .mbc5 a d s t := by
  obtain ⟨-, hs1, hs2, -, -, hs5, -⟩ := sliceOf_eq_iff a
  have hbit := addrBit12_iff a
  unfold decodeWriteMbc5
  cases hslice : sliceOf a with
  | s1 =>
    obtain ⟨hlo, hhi⟩ := hs1.1 hslice
    cases hset : addrBit12 a with
    | true =>
      have hodd := hbit.1 hset
      exact ⟨_, rfl, .mbc5HighBank rfl (by omega) hhi⟩
    | false =>
      have heven := mt hbit.2 (Bool.eq_false_iff.1 hset)
      exact ⟨_, rfl, .mbc5LowBank rfl hlo (by omega)⟩
  | s2 =>
    obtain ⟨hlo, hhi⟩ := hs2.1 hslice
    exact ⟨_, rfl, .mbc5RamBank rfl hlo hhi⟩
  | s5 =>
    obtain ⟨hlo, hhi⟩ := hs5.1 hslice
    exact ⟨_, rfl, .store hlo hhi (.inl rfl)⟩
  | s0 | s3 | s4 | s6 | s7 => exact ⟨_, rfl, .nop⟩

/-- Every WRITE completes, on every family, at every address and in every state, with one of the effects. -/
theorem exec_decodeWrite_effect (f : Family) (a : Addr) (d : Byte) (s : State) :
    ∃ t, exec (decodeWrite f a d) s = .next t ∧ WriteEffect f a d s t := by
  cases f with
  | none | unsupported => exact ⟨_, rfl, .nop⟩
  | mbc1 => exact exec_decodeWriteMbc1_effect a d s
  | mbc2 => exact exec_decodeWriteMbc2_effect a d s
  | mbc5 => exact exec_decodeWriteMbc5_effect a d s

/-- What a DEBUG_WRITE of `d` at `a` that completes can leave of a block `s` (R173 to R176). -/
inductive DebugWriteEffect (a : Addr) (d : Byte) (s : State) : State → Prop where
  | nop : DebugWriteEffect a d s (s.answer .none)
  | rom0 (hwin : windowOf a = .rom0) : DebugWriteEffect a d s ((s.romWrite (romOffset0 a) d).answer .none)
  | romX (hwin : windowOf a = .romX) (hin : romOffsetX s.romb a < s.romLen) :
      DebugWriteEffect a d s ((s.romWrite (romOffsetX s.romb a) d).answer .none)
  | xram (hwin : windowOf a = .xram) : DebugWriteEffect a d s ((s.ramWrite (ramOffset s.ramb a) d).answer .none)

/-- `DBGW.ROMX` writes inside the image and is refused beyond it (R174). -/
theorem execDbgwRomX_eq :
    execDbgwRomX a d s = if romOffsetX s.romb a < s.romLen then
        .next ((s.romWrite (romOffsetX s.romb a) d).answer .none)
      else .refused .romOffsetBeyondImage := rfl

/-- A DEBUG_WRITE has one of the effects or, in the switched window beyond the image, is refused. -/
theorem exec_decodeDebugWrite_effect (a : Addr) (d : Byte) (s : State) :
    (∃ t, exec (decodeDebugWrite a d) s = .next t ∧ DebugWriteEffect a d s t) ∨
    (windowOf a = .romX ∧ s.romLen ≤ romOffsetX s.romb a ∧
      exec (decodeDebugWrite a d) s = .refused .romOffsetBeyondImage) := by
  unfold decodeDebugWrite
  cases hwin : windowOf a with
  | rom0 => exact .inl ⟨_, rfl, .rom0 hwin⟩
  | romX =>
    by_cases hin : romOffsetX s.romb a < s.romLen
    · exact .inl ⟨_, execDbgwRomX_eq.trans (if_pos hin), .romX hwin hin⟩
    · exact .inr ⟨rfl, Nat.le_of_not_lt hin, execDbgwRomX_eq.trans (if_neg hin)⟩
  | xram => exact .inl ⟨_, rfl, .xram hwin⟩
  | out8 | outC => exact .inl ⟨_, rfl, .nop⟩

/-- What the transaction `r` can leave of a block `s` that has taken it from the queue: the table of R5. -/
inductive StepEffect (r : Request) (s : State) : State → Prop where
  | read (hop : r.op = 0x0#4) : StepEffect r s (s.answerRead (readByte s.fam r.addr s))
  | write (t : State) (hop : r.op = 0x1#4) (he : WriteEffect s.fam r.addr r.data s t) : StepEffect r s t
  | reset (hop : r.op = 0x2#4) : StepEffect r s { s with romb := 1#9, output := .none }
  | saveMapping (hop : r.op = 0x3#4) : StepEffect r s { s with saved := some (s.saved.getD s.romb), output := .none }
  | restoreMapping (hop : r.op = 0x4#4) :
      StepEffect r s { s with romb := s.saved.getD s.romb, saved := none, output := .none }
  | debugWrite (t : State) (hop : r.op = 0x5#4) (he : DebugWriteEffect r.addr r.data s t) : StepEffect r s t
  | currentBank (hop : r.op = 0x6#4) : StepEffect r s (s.answer (.bank s.romb))
  | mapInfo (hop : r.op = 0x7#4) : StepEffect r s s.answerText

/-- A step that answers a next state has one of the effects of its oldest request. -/
theorem step_effect {r : Request} {rest : List Request} (hp : s.pending = r :: rest) (h : step s = .next t) :
    StepEffect r (s.withPending rest) t := by
  obtain ⟨i, hd, he⟩ := step_pending hp h
  obtain ⟨hop, rfl⟩ | ⟨hop, rfl⟩ | ⟨hop, rfl⟩ | ⟨hop, rfl⟩ | ⟨hop, rfl⟩ | ⟨hop, rfl⟩ | ⟨hop, rfl⟩ | ⟨hop, rfl⟩ :=
    decodeFields_ok hd
  · rw [exec_decodeRead] at he
    cases he
    exact .read hop
  · obtain ⟨u, hu, heff⟩ := exec_decodeWrite_effect s.fam r.addr r.data (s.withPending rest)
    rw [hu] at he
    cases he
    exact .write _ hop heff
  · cases he
    exact .reset hop
  · rw [exec_saveMapping] at he
    cases he
    exact .saveMapping hop
  · rw [exec_restoreMapping] at he
    cases he
    exact .restoreMapping hop
  · obtain ⟨u, hu, heff⟩ | ⟨-, -, hrefused⟩ := exec_decodeDebugWrite_effect r.addr r.data (s.withPending rest)
    · rw [hu] at he
      cases he
      exact .debugWrite _ hop heff
    · rw [hrefused] at he
      cases he
  · cases he
    exact .currentBank hop
  · cases he
    exact .mapInfo hop

end Sys2Proof.Machine
end

section
/-! PROOFS. The bank numbers a control write makes, as numbers, and the ranges of R33 they lie in. -/

namespace Sys2Proof.Machine

variable {b : BitVec 9} {d : Byte}

/-- The five-bit field with 0 forced to 1, as a number (R92). -/
theorem forcedField_toNat (d : Byte) :
    (if d.extractLsb' 0 5 = 0#5 then 1#5 else d.extractLsb' 0 5).toNat = max (d.toNat % 32) 1 := by
  revert d
  decide

/-- Bits 6 and 5 kept, the low five the data's with 0 forced to 1 (R132). -/
theorem mbc1LowBank_toNat (b : BitVec 9) (d : Byte) :
    (mbc1LowBank b d).toNat = b.toNat / 32 % 4 * 32 + max (d.toNat % 32) 1 := by
  have hlt := (if d.extractLsb' 0 5 = 0#5 then 1#5 else d.extractLsb' 0 5).isLt
  rw [mbc1LowBank_eq, BitVec.toNat_append, ← Nat.shiftLeft_add_eq_or_of_lt hlt, forcedField_toNat, BitVec.toNat_append,
    BitVec.extractLsb'_toNat]
  simp [Nat.shiftLeft_eq, Nat.shiftRight_eq_div_pow]

/-- Bits 6 and 5 the data's, the low five kept (R133). -/
theorem mbc1HighBank_toNat (b : BitVec 9) (d : Byte) :
    (mbc1HighBank b d).toNat = b.toNat % 32 + d.toNat % 4 * 32 := by
  rw [mbc1HighBank_eq, BitVec.toNat_append, ← Nat.shiftLeft_add_eq_or_of_lt (BitVec.isLt _), BitVec.toNat_append,
    BitVec.extractLsb'_toNat, BitVec.extractLsb'_toNat]
  simp [Nat.shiftLeft_eq, Nat.add_comm]

theorem mbc1RamBank_toNat (d : Byte) : (mbc1RamBank d).toNat = d.toNat % 4 := by
  revert d
  decide

/-- R33 on `MBC1`: banks 1 to 127, but for the multiples of 32. -/
theorem rombOk_mbc1_iff : rombOk .mbc1 b = true ↔ b.toNat < 128 ∧ b.toNat % 32 ≠ 0 := by
  revert b
  decide

theorem rombOk_mbc1LowBank (b : BitVec 9) (d : Byte) : rombOk .mbc1 (mbc1LowBank b d) = true := by
  rw [rombOk_mbc1_iff, mbc1LowBank_toNat]
  omega

theorem rombOk_mbc1HighBank (h : rombOk .mbc1 b = true) : rombOk .mbc1 (mbc1HighBank b d) = true := by
  rw [rombOk_mbc1_iff] at h ⊢
  rw [mbc1HighBank_toNat]
  omega

theorem rombOk_mbc2Bank (d : Byte) : rombOk .mbc2 (mbc2Bank d) = true := by
  simp only [rombOk, mbc2Bank_toNat, Bool.and_eq_true, decide_eq_true_eq]
  omega

/-- Bank 1, which power-on and RESET map, is in range on every family. -/
theorem rombOk_one (f : Family) : rombOk f 1#9 = true := by
  cases f <;> decide

/-- On `MBC1` R33 bounds `RAMB` alone. -/
theorem latchesOk_mbc1RamBank (d : Byte) (ramEn mode : BitVec 1) :
    latchesOk .mbc1 (mbc1RamBank d) ramEn mode = true := by
  simp only [latchesOk]
  revert d
  decide

/-- A saved bank is in range, and so is the mapped one where none is saved. -/
theorem rombOk_getD {f : Family} {saved : Option (BitVec 9)} (hromb : rombOk f b = true)
    (hsaved : savedOk f saved = true) : rombOk f (saved.getD b) = true := by
  cases saved with
  | none => exact hromb
  | some c => exact hsaved

end Sys2Proof.Machine
end

section
/-! PROOFS. The invariant of a block (R33, with the form of its arrays): every effect of a step keeps it, so every step
does; and the obligations O50 and O51 from it. -/

namespace Sys2Proof.Machine

variable {s t : State} {r : Request} {a : Addr} {d : Byte}

/-- A RAM store keeps the arrays' form: the offset is inside the array at every address. -/
theorem arraysInv_ramWrite (h : ArraysInv s) (a : Addr) (d : Byte) :
    ArraysInv (s.ramWrite (ramOffset s.ramb a) d) := by
  obtain ⟨hromwf, hromin, hramwf, hramin, hcounts⟩ := h
  exact ⟨hromwf, hromin, Memory.wf_write _ _ _ hramwf, Memory.within_write _ _ _ _ hramin (ramOffset_lt s.ramb a),
    hcounts⟩

/-- A ROM write inside the image keeps the arrays' form. -/
theorem arraysInv_romWrite (h : ArraysInv s) {off : Nat} (hin : off < s.romLen) (d : Byte) :
    ArraysInv (s.romWrite off d) := by
  obtain ⟨hromwf, hromin, hrest⟩ := h
  exact ⟨Memory.wf_write _ _ _ hromwf, Memory.within_write _ _ _ _ hromin hin, hrest⟩

/-- The fixed window is inside the image of every legal size (R8, R9). -/
theorem romOffset0_lt_romLen (h : ArraysInv s) (a : Addr) : romOffset0 a < s.romLen := by
  obtain ⟨-, -, -, -, hcount, -⟩ := h
  have hpos : ∀ n ∈ [2, 4, 8, 16, 32, 64, 128, 256, 72, 80, 96], 1 ≤ n := by decide
  have hbanks : 1 ≤ s.bankCount := hpos s.bankCount hcount
  rw [romOffset0_eq, State.romLen]
  omega

theorem blockInv_writeEffect (hinv : BlockInv s) (he : WriteEffect s.fam a d s t) : BlockInv t := by
  obtain ⟨⟨hromb, hsaved, hlatches⟩, harrays⟩ := hinv
  cases he with
  | nop => exact ⟨⟨hromb, hsaved, hlatches⟩, harrays⟩
  | mbc1RamEnable hf | mbc1Mode hf =>
    refine ⟨⟨hromb, hsaved, ?_⟩, harrays⟩
    simpa [hf, latchesOk] using hlatches
  | mbc1LowBank hf =>
    refine ⟨⟨?_, hsaved, hlatches⟩, harrays⟩
    simpa [hf] using rombOk_mbc1LowBank s.romb d
  | mbc1HighBank hf =>
    rw [hf] at hromb
    refine ⟨⟨?_, hsaved, hlatches⟩, harrays⟩
    simpa [hf] using rombOk_mbc1HighBank hromb
  | mbc2Bank hf =>
    refine ⟨⟨?_, hsaved, hlatches⟩, harrays⟩
    simpa [hf] using rombOk_mbc2Bank d
  | mbc5LowBank hf | mbc5HighBank hf =>
    refine ⟨⟨?_, hsaved, hlatches⟩, harrays⟩
    simp [hf, rombOk]
  | mbc1RamBank hf =>
    refine ⟨⟨hromb, hsaved, ?_⟩, harrays⟩
    simpa [hf] using latchesOk_mbc1RamBank d s.ramEn s.mode
  | mbc5RamBank hf =>
    refine ⟨⟨hromb, hsaved, ?_⟩, harrays⟩
    simpa [hf, latchesOk] using hlatches
  | store => exact ⟨⟨hromb, hsaved, hlatches⟩, arraysInv_ramWrite harrays a d⟩

theorem blockInv_debugWriteEffect (hinv : BlockInv s) (he : DebugWriteEffect a d s t) : BlockInv t := by
  obtain ⟨hregs, harrays⟩ := hinv
  cases he with
  | nop => exact ⟨hregs, harrays⟩
  | rom0 => exact ⟨hregs, arraysInv_romWrite harrays (romOffset0_lt_romLen harrays a) d⟩
  | romX _ hin => exact ⟨hregs, arraysInv_romWrite harrays hin d⟩
  | xram => exact ⟨hregs, arraysInv_ramWrite harrays a d⟩

theorem blockInv_answerRead (hinv : BlockInv s) (o : Option Byte) : BlockInv (s.answerRead o) := by
  cases o <;> exact hinv

theorem blockInv_stepEffect (hinv : BlockInv s) (he : StepEffect r s t) : BlockInv t := by
  have ⟨⟨hromb, hsaved, hlatches⟩, harrays⟩ := hinv
  cases he with
  | read => exact blockInv_answerRead hinv _
  | write t _ he => exact blockInv_writeEffect hinv he
  | reset => exact ⟨⟨rombOk_one s.fam, hsaved, hlatches⟩, harrays⟩
  | saveMapping => exact ⟨⟨hromb, rombOk_getD hromb hsaved, hlatches⟩, harrays⟩
  | restoreMapping => exact ⟨⟨rombOk_getD hromb hsaved, rfl, hlatches⟩, harrays⟩
  | debugWrite t _ he => exact blockInv_debugWriteEffect hinv he
  | currentBank | mapInfo => exact hinv

/-- Settles O50: an idle step changes nothing, and every effect of a request keeps the invariant. -/
theorem everyStepKeepsTheBlockInvariant : Obligations.EveryStepKeepsTheBlockInvariant := by
  unfold Obligations.EveryStepKeepsTheBlockInvariant
  intro s t hinv hstep
  cases hp : s.pending with
  | nil =>
    obtain ⟨-, rfl⟩ | ⟨r, rest, i, hp', -⟩ := step_cases hstep
    · exact hinv
    · rw [hp] at hp'
      cases hp'
  | cons r rest =>
    have hqueue : BlockInv (s.withPending rest) := hinv
    exact blockInv_stepEffect hqueue (step_effect hp hstep)

/-- Settles O51: the reset state is concrete, with no byte listed in either array. -/
theorem theBlockInvariantHoldsAtReset : Obligations.TheBlockInvariantHoldsAtReset := by
  unfold Obligations.TheBlockInvariantHoldsAtReset
  decide

end Sys2Proof.Machine
end

section
/-! PROOFS. What a step leaves unchanged: the frames of its effects and the writers of each register, and the
obligations O46 to O49 from them. -/

namespace Sys2Proof.Machine

variable {s t : State} {r : Request} {rest : List Request} {f : Family} {a : Addr} {d : Byte}

theorem writeEffect_frame (he : WriteEffect f a d s t) : WriteFrame s t := by
  cases he <;> rfl

theorem debugWriteEffect_frame (he : DebugWriteEffect a d s t) :
    t = { s with rom := t.rom, ram := t.ram, output := .none } := by
  cases he <;> rfl

/-- A READ changes no register and neither array (R115). -/
theorem answerRead_eq (s : State) (o : Option Byte) :
    s.answerRead o = { s with output := (s.answerRead o).output, draws := (s.answerRead o).draws } := by
  cases o <;> rfl

/-- The ROM array is the debug port's alone (R28). -/
theorem stepEffect_rom (he : StepEffect r s t) (hop : r.op ≠ 0x5#4) : t.rom = s.rom := by
  cases he with
  | read => rw [answerRead_eq]
  | write t _ he => exact (congrArg State.rom (writeEffect_frame he) :)
  | debugWrite t hdebug => exact absurd hdebug hop
  | reset | saveMapping | restoreMapping | currentBank | mapInfo => rfl

/-- Settles O46: every effect but that of DEBUG_WRITE keeps the ROM array, and that one keeps all but the arrays. -/
theorem onlyDebugWriteChangesRom : Obligations.OnlyDebugWriteChangesRom := by
  unfold Obligations.OnlyDebugWriteChangesRom
  intro s t r rest hp hstep
  refine ⟨stepEffect_rom (s := s.withPending rest) (step_effect hp hstep), fun hop => ?_⟩
  obtain ⟨i, hd, he⟩ := step_pending hp hstep
  rw [hop] at hd
  cases hd
  rw [exec_decodeDebugWrite_frame he]
  rfl

/-- The operations of the CPU port are READ and WRITE (R220). -/
theorem mayIssue_cpu_iff (op : BitVec 4) : mayIssue .cpu op = true ↔ op = 0x0#4 ∨ op = 0x1#4 := by
  simp [mayIssue]

/-- Settles O47: a READ and a WRITE each have a frame that `SAVED`, the ROM array and the configuration lie in. -/
theorem theCpuPortCannotReachSavedOrRom : Obligations.TheCpuPortCannotReachSavedOrRom := by
  unfold Obligations.TheCpuPortCannotReachSavedOrRom
  intro s t r rest hp hcpu hstep
  obtain ⟨i, hd, he⟩ := step_pending hp hstep
  rcases (mayIssue_cpu_iff r.op).1 hcpu with hop | hop <;> rw [hop] at hd <;> cases hd
  · rw [exec_decodeRead] at he
    cases he
    rw [answerRead_eq]
    rfl
  · have hframe : WriteFrame (s.withPending rest) t := exec_decodeWrite_writeFrame he
    rw [hframe]
    rfl

/-- The attributes fixed at load are in the frame of every effect (R6, R7). -/
theorem stepEffect_configuration (he : StepEffect r s t) :
    t.fam = s.fam ∧ t.bankCount = s.bankCount ∧ t.battery = s.battery ∧ t.ramBankCount = s.ramBankCount := by
  cases he with
  | read =>
    rw [answerRead_eq]
    exact ⟨rfl, rfl, rfl, rfl⟩
  | write t _ he =>
    have hframe : WriteFrame s t := writeEffect_frame he
    rw [hframe]
    exact ⟨rfl, rfl, rfl, rfl⟩
  | debugWrite t _ he =>
    rw [debugWriteEffect_frame he]
    exact ⟨rfl, rfl, rfl, rfl⟩
  | reset | saveMapping | restoreMapping | currentBank | mapInfo => exact ⟨rfl, rfl, rfl, rfl⟩

/-- Settles O49: an idle step changes nothing, and no effect of a request reaches the configuration. -/
theorem theConfigurationNeverChanges : Obligations.TheConfigurationNeverChanges := by
  unfold Obligations.TheConfigurationNeverChanges
  intro s t hstep
  obtain ⟨-, rfl⟩ | ⟨r, rest, i, hp, -⟩ := step_cases hstep
  · exact ⟨rfl, rfl, rfl, rfl⟩
  · exact stepEffect_configuration (s := s.withPending rest) (step_effect hp hstep)

/-- The writers of the four registers a WRITE may change (R21 to R24): the effects that change the register, with the
windows and conditions they have. -/
theorem writeEffect_writers (he : WriteEffect f a d s t) :
    (t.ramEn ≠ s.ramEn → f = .mbc1 ∧ a.toNat < 0x2000) ∧
    (t.mode ≠ s.mode → f = .mbc1 ∧ 0x6000 ≤ a.toNat ∧ a.toNat < 0x8000) ∧
    (t.ramb ≠ s.ramb → 0x4000 ≤ a.toNat ∧ a.toNat < 0x6000 ∧ (f = .mbc5 ∨ (f = .mbc1 ∧ s.mode = 1#1))) ∧
    (t.romb ≠ s.romb → 0x2000 ≤ a.toNat ∧
      ((f = .mbc5 ∧ a.toNat < 0x4000) ∨ (f = .mbc2 ∧ a.toNat < 0x4000 ∧ a.toNat / 256 % 2 = 1) ∨
        (f = .mbc1 ∧ (a.toNat < 0x4000 ∨ (a.toNat < 0x6000 ∧ s.mode = 0#1))))) := by
  cases he with
  | nop | store => simp
  | mbc1RamEnable hf hhi => simp [hf, hhi]
  | mbc1Mode hf hlo hhi => simp [hf, hlo, hhi]
  | mbc1LowBank hf hlo hhi => simp [hf, hlo, hhi]
  | mbc1HighBank hf hlo hhi hmode => simp [hf, hhi, hmode, show 0x2000 ≤ a.toNat by omega]
  | mbc1RamBank hf hlo hhi hmode => simp [hf, hlo, hhi, hmode]
  | mbc2Bank hf hlo hhi hbit => simp [hf, hlo, hhi, hbit]
  | mbc5LowBank hf hlo hhi => simp [hf, hlo, show a.toNat < 0x4000 by omega]
  | mbc5HighBank hf hlo hhi => simp [hf, hhi, show 0x2000 ≤ a.toNat by omega]
  | mbc5RamBank hf hlo hhi => simp [hf, hlo, hhi]

/-- Settles O48, by the effect: a WRITE has the writers of `writeEffect_writers` and keeps `SAVED`, RESET and the two
mapping transactions move `ROMB` and `SAVED` alone, and the others move no register. -/
theorem eachRegisterHasOnlyItsNamedWriters : Obligations.EachRegisterHasOnlyItsNamedWriters := by
  unfold Obligations.EachRegisterHasOnlyItsNamedWriters
  intro s t r rest hp hstep
  cases step_effect hp hstep with
  | read =>
    rw [answerRead_eq]
    simp
  | write t hop he =>
    obtain ⟨hramEn, hmode, hramb, hromb⟩ := writeEffect_writers he
    have hsaved : t.saved = s.saved := (writeEffect_frame he).saved
    exact ⟨fun h => ⟨hop, hramEn h⟩, fun h => ⟨hop, hmode h⟩, fun h => ⟨hop, hramb h⟩,
      fun h => .inr (.inr ⟨hop, hromb h⟩), fun h => absurd hsaved h⟩
  | debugWrite t hop he =>
    rw [debugWriteEffect_frame he]
    simp
  | reset hop => simp [hop]
  | saveMapping hop => cases hs : s.saved <;> simp [hop, hs]
  | restoreMapping hop => cases hs : s.saved <;> simp [hop, hs]
  | currentBank | mapInfo => simp

end Sys2Proof.Machine
end

section
/-! PROOFS. Single steps (spec/00_scope.md section 4, spec/60_exceptions.md): the step as an equation for each operation
code, which steps complete, and the obligations O5 to O7 from them. -/

namespace Sys2Proof.Machine

variable {s t : State} {r : Request} {rest : List Request} {a : Addr} {d : Byte}

/-- Settles O5: the word's fields are what the request and the strap hold. -/
theorem stepRunsTheDecodedTransaction : Obligations.StepRunsTheDecodedTransaction := by
  unfold Obligations.StepRunsTheDecodedTransaction
  intro s r rest i hp hd
  rw [decode_packTW] at hd
  exact step_eq_exec hp hd

/-- Settles O6: the step's first branch. -/
theorem theBlockIsIdleWithoutATransaction : Obligations.TheBlockIsIdleWithoutATransaction := by
  unfold Obligations.TheBlockIsIdleWithoutATransaction
  intro s hp
  unfold step
  rw [hp]

theorem step_write (hp : s.pending = r :: rest) (hop : r.op = 0x1#4) :
    step s = exec (decodeWrite s.fam r.addr r.data) (s.withPending rest) :=
  step_eq_exec hp (by rw [hop]; rfl)

theorem step_reset (hp : s.pending = r :: rest) (hop : r.op = 0x2#4) :
    step s = .next { s with romb := 1#9, pending := rest, output := .none } :=
  step_eq_exec hp (i := .reset) (by rw [hop]; rfl)

theorem step_saveMapping (hp : s.pending = r :: rest) (hop : r.op = 0x3#4) :
    step s = .next { s with saved := some (s.saved.getD s.romb), pending := rest, output := .none } :=
  (step_eq_exec hp (by rw [hop]; rfl)).trans (exec_saveMapping (s.withPending rest))

theorem step_restoreMapping (hp : s.pending = r :: rest) (hop : r.op = 0x4#4) :
    step s = .next { s with romb := s.saved.getD s.romb, saved := none, pending := rest, output := .none } :=
  (step_eq_exec hp (by rw [hop]; rfl)).trans (exec_restoreMapping (s.withPending rest))

theorem step_debugWrite (hp : s.pending = r :: rest) (hop : r.op = 0x5#4) :
    step s = exec (decodeDebugWrite r.addr r.data) (s.withPending rest) :=
  step_eq_exec hp (by rw [hop]; rfl)

/-- An operation code of 0x8 or more is refused by name (R81, R94). -/
theorem step_reserved (hp : s.pending = r :: rest) (hop : 8 ≤ r.op.toNat) :
    step s = .refused (.reservedOperation r.op) := by
  unfold step
  rw [hp]
  simp only [decode_word, decodeFields_reserved r.op r.addr r.data s.fam hop]
  rfl

/-- No effect reaches the queue. -/
theorem stepEffect_pending (he : StepEffect r s t) : t.pending = s.pending := by
  cases he with
  | read => rw [answerRead_eq]
  | write t _ he => exact (congrArg State.pending (writeEffect_frame he) :)
  | debugWrite t _ he => exact (congrArg State.pending (debugWriteEffect_frame he) :)
  | reset | saveMapping | restoreMapping | currentBank | mapInfo => rfl

/-- A step that answers a next state has taken its request from the queue. -/
theorem step_next_pending (hp : s.pending = r :: rest) (h : step s = .next t) : t.pending = rest :=
  stepEffect_pending (step_effect hp h)

/-- Every transaction but DEBUG_WRITE completes, in every state (R210). -/
theorem step_completes (hp : s.pending = r :: rest) (hop : r.op.toNat < 8) (hdbg : r.op ≠ 0x5#4) :
    ∃ t, step s = .next t := by
  obtain ⟨i, hd⟩ := decodeFields_defined (f := s.fam) (a := r.addr) (d := r.data) hop
  rw [step_eq_exec hp hd]
  obtain ⟨-, rfl⟩ | ⟨-, rfl⟩ | ⟨-, rfl⟩ | ⟨-, rfl⟩ | ⟨-, rfl⟩ | ⟨h5, -⟩ | ⟨-, rfl⟩ | ⟨-, rfl⟩ := decodeFields_ok hd
  · exact ⟨_, exec_decodeRead s.fam r.addr _⟩
  · obtain ⟨t, ht, -⟩ := exec_decodeWrite_effect s.fam r.addr r.data (s.withPending rest)
    exact ⟨t, ht⟩
  · exact ⟨_, rfl⟩
  · exact ⟨_, exec_saveMapping _⟩
  · exact ⟨_, exec_restoreMapping _⟩
  · exact absurd h5 hdbg
  · exact ⟨_, rfl⟩
  · exact ⟨_, rfl⟩

/-- In the switched window beyond the image a DEBUG_WRITE is refused (R174, D10). -/
theorem exec_decodeDebugWrite_beyond (hlo : 0x4000 ≤ a.toNat) (hhi : a.toNat < 0x8000)
    (hbeyond : s.romLen ≤ romOffsetX s.romb a) :
    exec (decodeDebugWrite a d) s = .refused .romOffsetBeyondImage := by
  simp only [decodeDebugWrite, windowOf_romX hlo hhi]
  exact execDbgwRomX_eq.trans (if_neg (Nat.not_lt.mpr hbeyond))

/-- Settles O7: a reserved code is refused, a DEBUG_WRITE is refused exactly beyond the image, and every other
transaction completes. -/
theorem everyTransactionCompletesBarOne : Obligations.EveryTransactionCompletesBarOne := by
  unfold Obligations.EveryTransactionCompletesBarOne
  intro s r rest hp
  split
  · next hres => exact step_reserved hp hres
  · next hdef =>
    split
    · next hbeyond =>
      obtain ⟨hop, hlo, hhi, hoff⟩ := hbeyond
      rw [step_debugWrite hp hop]
      exact exec_decodeDebugWrite_beyond hlo hhi hoff
    · next hbeyond =>
      have hnext : ∃ t, step s = .next t := by
        by_cases hop : r.op = 0x5#4
        · rw [step_debugWrite hp hop]
          obtain ⟨t, ht, -⟩ | ⟨hwin, hoff, -⟩ := exec_decodeDebugWrite_effect r.addr r.data (s.withPending rest)
          · exact ⟨t, ht⟩
          · obtain ⟨-, hromX, -⟩ := windowOf_eq_iff r.addr
            obtain ⟨hlo, hhi⟩ := hromX.1 hwin
            exact absurd ⟨hop, hlo, hhi, hoff⟩ hbeyond
        · exact step_completes hp (Nat.lt_of_not_le hdef) hop
      obtain ⟨t, ht⟩ := hnext
      exact ⟨t, ht, step_next_pending hp ht⟩

end Sys2Proof.Machine
end

section
/-! PROOFS. WRITE (spec/42_write_mbc1.md to spec/44_write_mbc5.md): the transition summary of `MBC1`, the rows of `MBC2`,
the rows of `MBC5` left, and the obligations O21 to O24, O29 and O30 from them. -/

namespace Sys2Proof.Machine

variable {s : State} {a : Addr} {d : Byte}

theorem ramEnableOf_toNat (d : Byte) : (ramEnableOf d).toNat = if d.toNat % 16 = 0xA then 1 else 0 := by
  rw [ramEnableOf_eq]
  split <;> rfl

theorem modeOf_toNat (d : Byte) : (modeOf d).toNat = d.toNat % 2 := by
  revert d
  decide

/-- Settles O21, by the slice of the address, with `MODE` in the slice of the secondary bits and `RAM_EN` in the RAM
window: each of the five clauses keeps its register in every slice but its own. -/
theorem mbc1WriteStepsFollowTheTransitionTable : Obligations.Mbc1WriteStepsFollowTheTransitionTable := by
  unfold Obligations.Mbc1WriteStepsFollowTheTransitionTable
  intro s r rest hp hop hfam
  have hstep : step s = exec (decodeWriteMbc1 r.addr r.data) (s.withPending rest) := by
    rw [step_write hp hop, hfam]
    rfl
  have hrange := sliceOf_eq_iff r.addr
  rw [hstep]
  unfold decodeWriteMbc1
  cases hslice : sliceOf r.addr with
  | s0 | s1 | s3 | s4 | s6 | s7 =>
    simp only [hslice, reduceCtorEq, true_iff, false_iff] at hrange
    refine ⟨_, rfl, rfl, ?_, ?_, ?_, ?_, fun off => ?_⟩
    all_goals simp (disch := omega) [if_neg, if_pos, ramEnableOf_toNat, mbc1LowBank_toNat, modeOf_toNat]
  | s2 =>
    simp only [hslice, reduceCtorEq, true_iff, false_iff] at hrange
    rcases bit_cases s.mode with hmode | hmode
    · refine ⟨_, if_neg (by simp [largeRamMode, hmode]), rfl, ?_, ?_, ?_, ?_, fun off => ?_⟩
      all_goals simp (disch := omega) [if_neg, mbc1HighBank_toNat, hrange, hmode]
    · refine ⟨_, if_pos (by simp [largeRamMode, hmode]), rfl, ?_, ?_, ?_, ?_, fun off => ?_⟩
      all_goals simp (disch := omega) [if_neg, mbc1RamBank_toNat, hrange, hmode]
  | s5 =>
    simp only [hslice, reduceCtorEq, true_iff, false_iff] at hrange
    obtain ⟨-, -, -, -, -, ⟨hlo, hhi⟩, -⟩ := hrange
    change ∃ t, storeXramGated r.addr r.data (s.withPending rest) = .next t ∧ _
    rw [storeXramGated_eq, storeXram_eq hlo hhi]
    rcases bit_cases s.ramEn with hen | hen
    · refine ⟨_, if_neg (by simp [hen]), rfl, ?_, ?_, ?_, ?_, fun off => ?_⟩
      all_goals simp (disch := omega) [if_neg, hen]
    · refine ⟨_, if_pos hen, rfl, ?_, ?_, ?_, ?_, fun off => ?_⟩
      all_goals simp (disch := omega) [if_neg, hen, hlo, hhi]

/-- The word of a WRITE on `MBC2` decodes to the row R87 selects by the address alone. -/
theorem decode_packTW_write_mbc2 {i : Instr} (hrow : decodeWriteMbc2 a d = i) :
    decode (packTW 0x1#4 0x2#4 a d) = .ok i :=
  hrow ▸ decode_packTW_write .mbc2 a d

/-- Settles O22: in slice 1 with `addr[8]` set the ROM bank becomes the forced field (`mbc2Bank_toNat`). -/
theorem mbc2BankSelectNeedsAddressBitEight : Obligations.Mbc2BankSelectNeedsAddressBitEight := by
  unfold Obligations.Mbc2BankSelectNeedsAddressBitEight
  intro s a d hlo hhi hbit
  have hset : addrBit8 a = true := (addrBit8_iff a).2 hbit
  exact ⟨decode_packTW_write_mbc2 (by simp only [decodeWriteMbc2, sliceOf_s1 hlo hhi, if_pos hset]),
    _, switchRom_eq (mbc2Bank d) s, mbc2Bank_toNat d, rfl⟩

/-- Settles O23: the rows of slice 1 with `addr[8]` clear, and of the slices without a control window, are no-ops. -/
theorem mbc2OtherWritesDoNothing : Obligations.Mbc2OtherWritesDoNothing := by
  unfold Obligations.Mbc2OtherWritesDoNothing
  intro s a d
  refine ⟨fun hhi => ?_, fun hlo hhi hbit => ?_, fun hlo hhi => ?_, fun hlo hhi => ?_, fun hlo => ?_⟩
  · exact ⟨decode_packTW_write_mbc2 (by simp only [decodeWriteMbc2, sliceOf_s0 hhi]), nop_eq s⟩
  · have hclear : ¬ addrBit8 a = true := by
      rw [addrBit8_iff]
      omega
    exact ⟨decode_packTW_write_mbc2 (by simp only [decodeWriteMbc2, sliceOf_s1 hlo hhi, if_neg hclear]), nop_eq s⟩
  · have hrow : decodeWriteMbc2 a d = .wrMbc2Nop4 a d := by
      rcases Nat.lt_or_ge a.toNat 0x6000 with hlt | hge
      · simp only [decodeWriteMbc2, sliceOf_s2 hlo hlt]
      · simp only [decodeWriteMbc2, sliceOf_s3 hge hhi]
    exact ⟨decode_packTW_write_mbc2 hrow, nop_eq s⟩
  · exact ⟨decode_packTW_write_mbc2 (by simp only [decodeWriteMbc2, sliceOf_s4 hlo hhi]), nop_eq s⟩
  · have hrow : decodeWriteMbc2 a d = .wrMbc2NopC a d := by
      rcases sliceOf_s6_or_s7 hlo with hs | hs <;> simp only [decodeWriteMbc2, hs]
    exact ⟨decode_packTW_write_mbc2 hrow, nop_eq s⟩

/-- On `MBC2` R33 has `RAM_EN` at 0 (D8). -/
theorem ramEn_of_registersInv_mbc2 (hinv : RegistersInv s) (hfam : s.fam = .mbc2) : s.ramEn = 0#1 := by
  obtain ⟨-, -, hlatches⟩ := hinv
  simp only [hfam, latchesOk, Bool.and_eq_true, beq_iff_eq] at hlatches
  obtain ⟨⟨-, hen⟩, -⟩ := hlatches
  exact hen

/-- Settles O24: the row is the gated store, and in a block that meets the invariant the gate is closed. -/
theorem mbc2RamStoresAreGated : Obligations.Mbc2RamStoresAreGated := by
  unfold Obligations.Mbc2RamStoresAreGated
  intro s a d hlo hhi
  constructor
  · exact decode_packTW_write_mbc2 (by simp only [decodeWriteMbc2, sliceOf_s5 hlo hhi])
  · obtain ⟨t, ht, hframe, hram⟩ := storeXramGated_window (s := s) (d := d) hlo hhi
    refine ⟨t, ht, hframe, hram, fun hinv hfam => ?_⟩
    have hen : s.ramEn = 0#1 := ramEn_of_registersInv_mbc2 hinv hfam
    rwa [if_neg (by simp [hen])] at hram

/-- A store into the RAM window completes, changes RAM at the one offset and nothing else, whatever `RAM_EN` holds. -/
theorem storeXram_window (hlo : 0xA000 ≤ a.toNat) (hhi : a.toNat < 0xC000) :
    ∃ t, storeXram a d s = .next t ∧ { t with ram := s.ram } = { s with output := .none } ∧
      ∀ off, t.ramRead off = if off = s.ramb.toNat * 8192 + (a.toNat - 0xA000) then d else s.ramRead off :=
  ⟨_, storeXram_eq hlo hhi, rfl, fun off => State.ramWrite_ramRead s _ off d⟩

/-- Settles O29: the row is the store without the gate. -/
theorem mbc5RamStoresAreNotGated : Obligations.Mbc5RamStoresAreNotGated := by
  unfold Obligations.Mbc5RamStoresAreNotGated
  intro s a d hlo hhi
  exact ⟨decode_packTW_write_mbc5 (by simp only [decodeWriteMbc5, sliceOf_s5 hlo hhi]), storeXram_window hlo hhi⟩

/-- Settles O30: the rows of the slices without a control window are no-ops, slice 0 among them. -/
theorem mbc5OtherWritesDoNothing : Obligations.Mbc5OtherWritesDoNothing := by
  unfold Obligations.Mbc5OtherWritesDoNothing
  intro s a d
  refine ⟨fun hhi => ?_, fun hlo hhi => ?_, fun hlo hhi => ?_, fun hlo => ?_⟩
  · exact ⟨decode_packTW_write_mbc5 (by simp only [decodeWriteMbc5, sliceOf_s0 hhi]), nop_eq s⟩
  · exact ⟨decode_packTW_write_mbc5 (by simp only [decodeWriteMbc5, sliceOf_s3 hlo hhi]), nop_eq s⟩
  · exact ⟨decode_packTW_write_mbc5 (by simp only [decodeWriteMbc5, sliceOf_s4 hlo hhi]), nop_eq s⟩
  · have hrow : decodeWriteMbc5 a d = .wrMbc5NopC a d := by
      rcases sliceOf_s6_or_s7 hlo with hs | hs <;> simp only [decodeWriteMbc5, hs]
    exact ⟨decode_packTW_write_mbc5 hrow, nop_eq s⟩

end Sys2Proof.Machine
end

section
/-! PROOFS. READ where it can answer a free byte (spec/40_read.md): the obligations O9, O11 and O12. -/

namespace Sys2Proof.Machine

variable {a : Addr}

theorem windowOf_out8 (hlo : 0x8000 ≤ a.toNat) (hhi : a.toNat < 0xA000) : windowOf a = .out8 := by
  obtain ⟨-, -, hout8, -⟩ := windowOf_eq_iff a
  exact hout8.2 ⟨hlo, hhi⟩

theorem windowOf_outC (hlo : 0xC000 ≤ a.toNat) : windowOf a = .outC := by
  obtain ⟨-, -, -, -, houtC⟩ := windowOf_eq_iff a
  exact houtC.2 hlo

/-- In the switched window `addr[13:0]` is `addr − 0x4000` (R56). -/
theorem romOffsetX_of_window (b : BitVec 9) (hlo : 0x4000 ≤ a.toNat) (hhi : a.toNat < 0x8000) :
    romOffsetX b a = b.toNat * 16384 + a.toNat % 16384 := by
  unfold romOffsetX
  omega

theorem romOffsetX_eq_append (b : BitVec 9) (hlo : 0x4000 ≤ a.toNat) (hhi : a.toNat < 0x8000) :
    romOffsetX b a = (b ++ a.extractLsb' 0 14).toNat := by
  rw [bank_append14]
  exact romOffsetX_of_window b hlo hhi

/-- An answer under a condition is one of the two kinds of answer. -/
theorem answerRead_ite (s : State) (c : Prop) [Decidable c] (b : Byte) :
    s.answerRead (if c then some b else none) = if c then s.answer (.byte b) else s.answerUndef8 := by
  split <;> rfl

/-- Settles O9: the rows of the switched window, with the offset as a concatenation, on both sides of the image end. -/
theorem readOfTheSwitchedWindowGivesTheMappedBank : Obligations.ReadOfTheSwitchedWindowGivesTheMappedBank := by
  unfold Obligations.ReadOfTheSwitchedWindowGivesTheMappedBank
  intro s a d hlo hhi
  have hbyte (f : Family) (hf : f ≠ .unsupported) : readByte f a s =
      if (s.romb ++ a.extractLsb' 0 14).toNat < 16384 * s.bankCount then
        some (s.romRead (s.romb ++ a.extractLsb' 0 14).toNat) else none := by
    simp only [readByte, if_neg hf, windowOf_romX hlo hhi, romOffsetX_eq_append s.romb hlo hhi, State.romLen]
  have hanswer := answerRead_ite s ((s.romb ++ a.extractLsb' 0 14).toNat < 16384 * s.bankCount)
    (s.romRead (s.romb ++ a.extractLsb' 0 14).toNat)
  refine hanswer ▸ read_rows d ?_ ?_ ?_ ?_ hbyte
  all_goals simp only [decodeRead, windowOf_romX hlo hhi]

/-- Settles O11: outside the three windows the rules give no byte, on each of the four families. -/
theorem readOutsideTheWindowsAnswersAFreeByte : Obligations.ReadOutsideTheWindowsAnswersAFreeByte := by
  unfold Obligations.ReadOutsideTheWindowsAnswersAFreeByte
  intro s a d
  constructor
  · intro hlo hhi
    refine read_rows (o := none) d ?_ ?_ ?_ ?_ fun f hf => ?_
    all_goals simp only [decodeRead, readByte, windowOf_out8 hlo hhi, ite_self]
  · intro hlo
    refine read_rows (o := none) d ?_ ?_ ?_ ?_ fun f hf => ?_
    all_goals simp only [decodeRead, readByte, windowOf_outC hlo, ite_self]

/-- Settles O12: on `UNSUPPORTED` the rules give no byte at any address. -/
theorem readOnUnsupportedAnswersAFreeByte : Obligations.ReadOnUnsupportedAnswersAFreeByte := by
  unfold Obligations.ReadOnUnsupportedAnswersAFreeByte
  intro s a d
  exact ⟨decode_packTW_read .unsupported a d, exec_decodeRead .unsupported a s⟩

end Sys2Proof.Machine
end

section
/-! PROOFS. The debug and host transactions one by one (spec/45_debug_port.md, spec/70_reset_and_hazards.md): the
obligations O32, O33, O35 to O41 and O43. -/

namespace Sys2Proof.Machine

variable {a : Addr} {d : Byte}

/-- Settles O32: the two rows of R170's table for SAVE_MAPPING. -/
theorem saveMappingCapturesOnlyTheFirstTime : Obligations.SaveMappingCapturesOnlyTheFirstTime := by
  unfold Obligations.SaveMappingCapturesOnlyTheFirstTime
  intro s f a d
  refine ⟨decode_packTW 0x3#4 a d f, ?_⟩
  rw [exec_saveMapping]
  cases hsaved : s.saved with
  | none => rfl
  | some b =>
    rw [if_neg (by simp), Option.getD_some, ← hsaved]

/-- Settles O33: the two rows of R170's table for RESTORE_MAPPING. -/
theorem restoreMappingMapsTheSavedBank : Obligations.RestoreMappingMapsTheSavedBank := by
  unfold Obligations.RestoreMappingMapsTheSavedBank
  intro s f a d
  refine ⟨decode_packTW 0x4#4 a d f, fun hsaved => ?_, fun b hsaved => ?_⟩
  · rw [exec_restoreMapping, hsaved, Option.getD_none, ← hsaved]
  · rw [exec_restoreMapping, hsaved, Option.getD_some]

/-- The word of a DEBUG_WRITE decodes to the row R89 selects by the address alone, on every family. -/
theorem decode_packTW_debugWrite_row {i : Instr} (f : Family) (hrow : decodeDebugWrite a d = i) :
    decode (packTW 0x5#4 (familyCode f) a d) = .ok i :=
  hrow ▸ decode_packTW_debugWrite f a d

/-- A ROM write changes the one byte, answers nothing and changes nothing else. -/
theorem romWrite_frame (s : State) (off : Nat) (d : Byte) :
    { (s.romWrite off d).answer .none with rom := s.rom } = { s with output := .none } ∧
      ∀ i, ((s.romWrite off d).answer .none).romRead i = if i = off then d else s.romRead i :=
  ⟨rfl, fun i => State.romWrite_romRead s off i d⟩

/-- Settles O35: below 0x4000 the offset is the address. -/
theorem debugWriteToTheFixedWindowWritesRom : Obligations.DebugWriteToTheFixedWindowWritesRom := by
  unfold Obligations.DebugWriteToTheFixedWindowWritesRom
  intro s f a d hhi
  refine ⟨decode_packTW_debugWrite_row f (by simp only [decodeDebugWrite, windowOf_rom0 hhi]), _, rfl, ?_⟩
  rw [romOffset0_eq, Nat.mod_eq_of_lt hhi]
  exact romWrite_frame s a.toNat d

theorem decodeDebugWrite_romX (hlo : 0x4000 ≤ a.toNat) (hhi : a.toNat < 0x8000) :
    decodeDebugWrite a d = .dbgwRomX a d := by
  simp only [decodeDebugWrite, windowOf_romX hlo hhi]

/-- Settles O36: inside the image the write goes to the translated offset. -/
theorem debugWriteToTheSwitchedWindowWritesTheMappedBank :
    Obligations.DebugWriteToTheSwitchedWindowWritesTheMappedBank := by
  unfold Obligations.DebugWriteToTheSwitchedWindowWritesTheMappedBank
  intro s f a d hlo hhi hin
  exact ⟨decode_packTW_debugWrite_row f (decodeDebugWrite_romX hlo hhi), _, if_pos hin, romWrite_frame s _ d⟩

/-- Settles O37: the same row beyond the image. -/
theorem debugWriteBeyondTheImageIsRefused : Obligations.DebugWriteBeyondTheImageIsRefused := by
  unfold Obligations.DebugWriteBeyondTheImageIsRefused
  intro s f a d hlo hhi hbeyond
  have hrow : decodeDebugWrite a d = .dbgwRomX a d := decodeDebugWrite_romX hlo hhi
  exact ⟨decode_packTW_debugWrite_row f hrow, hrow ▸ exec_decodeDebugWrite_beyond hlo hhi hbeyond⟩

/-- Settles O38: the row is the store without the gate. -/
theorem debugWriteToTheRamWindowIsNotGated : Obligations.DebugWriteToTheRamWindowIsNotGated := by
  unfold Obligations.DebugWriteToTheRamWindowIsNotGated
  intro s f a d hlo hhi
  exact ⟨decode_packTW_debugWrite_row f (by simp only [decodeDebugWrite, windowOf_xram hlo hhi]),
    storeXram_window hlo hhi⟩

/-- Settles O39: both rows outside the windows of the cartridge are no-ops. -/
theorem debugWriteOutsideDoesNothing : Obligations.DebugWriteOutsideDoesNothing := by
  unfold Obligations.DebugWriteOutsideDoesNothing
  intro s f a d
  constructor
  · intro hlo hhi
    exact ⟨decode_packTW_debugWrite_row f (by simp only [decodeDebugWrite, windowOf_out8 hlo hhi]), nop_eq s⟩
  · intro hlo
    exact ⟨decode_packTW_debugWrite_row f (by simp only [decodeDebugWrite, windowOf_outC hlo]), nop_eq s⟩

/-- Settles O40: the row answers `ROMB` and nothing else. -/
theorem currentBankAnswersTheMappedBank : Obligations.CurrentBankAnswersTheMappedBank := by
  unfold Obligations.CurrentBankAnswersTheMappedBank
  exact fun s f a d => ⟨decode_packTW 0x6#4 a d f, rfl⟩

/-- Settles O41: the row answers the next free string and nothing else. -/
theorem mapInfoAnswersAFreeString : Obligations.MapInfoAnswersAFreeString := by
  unfold Obligations.MapInfoAnswersAFreeString
  exact fun s f a d => ⟨decode_packTW 0x7#4 a d f, rfl⟩

/-- Settles O43: the row is the switch to bank 1 (`switchRom_eq`). -/
theorem resetMapsBankOneAndNothingElse : Obligations.ResetMapsBankOneAndNothingElse := by
  unfold Obligations.ResetMapsBankOneAndNothingElse
  exact fun s f a d => ⟨decode_packTW 0x2#4 a d f, switchRom_eq 1#9 s⟩

end Sys2Proof.Machine
end

section
/-! PROOFS. Runs of several transactions (spec/95_test_vectors.md sections 1 and 4): the obligations O27, O31, O42 and
O44. -/

namespace Sys2Proof.Machine

variable {s t : State} {a : Addr} {d : Byte}

/-- A run goes on from the state its first step answers. -/
theorem run_succ (k : Nat) (h : step s = .next t) : core.run (k + 1) s = core.run k t := by
  have hstep : core.step s = .next t := h
  simp only [Host.Core.run, hstep]

theorem run_one (h : step s = .next t) : core.run 1 s = .next t := run_succ 0 h

theorem mbc5LowBank_toNat (b : BitVec 9) (d : Byte) : (mbc5LowBank b d).toNat = b.toNat / 256 * 256 + d.toNat := by
  have hlt := b.isLt
  rw [mbc5LowBank_eq, BitVec.toNat_append, ← Nat.shiftLeft_add_eq_or_of_lt d.isLt, BitVec.extractLsb'_toNat,
    Nat.shiftLeft_eq, Nat.shiftRight_eq_div_pow]
  omega

theorem mbc5HighBank_toNat (b : BitVec 9) (d : Byte) :
    (mbc5HighBank b d).toNat = d.toNat % 2 * 256 + b.toNat % 256 := by
  rw [mbc5HighBank_eq, BitVec.toNat_append, ← Nat.shiftLeft_add_eq_or_of_lt (BitVec.isLt _), BitVec.extractLsb'_toNat,
    BitVec.extractLsb'_toNat, Nat.shiftLeft_eq]
  simp

theorem step_mbc5LowBank {rest : List Request} (hfam : s.fam = .mbc5) (hlo : 0x2000 ≤ a.toNat) (hhi : a.toNat < 0x3000)
    (hp : s.pending = ⟨0x1#4, a, d⟩ :: rest) :
    step s = .next { s with romb := mbc5LowBank s.romb d, pending := rest, output := .none } := by
  have hrow : decodeFields 0x1#4 s.fam a d = .ok (.wrMbc5RombLo8 a d) := by
    rw [hfam]
    exact congrArg Decoded.ok (decodeWriteMbc5_low hlo hhi)
  exact (step_eq_exec hp hrow).trans (switchRom_eq (mbc5LowBank s.romb d) (s.withPending rest))

theorem step_mbc5HighBank {rest : List Request} (hfam : s.fam = .mbc5) (hlo : 0x3000 ≤ a.toNat) (hhi : a.toNat < 0x4000)
    (hp : s.pending = ⟨0x1#4, a, d⟩ :: rest) :
    step s = .next { s with romb := mbc5HighBank s.romb d, pending := rest, output := .none } := by
  have hrow : decodeFields 0x1#4 s.fam a d = .ok (.wrMbc5RombHi a d) := by
    rw [hfam]
    exact congrArg Decoded.ok (decodeWriteMbc5_high hlo hhi)
  exact (step_eq_exec hp hrow).trans (switchRom_eq (mbc5HighBank s.romb d) (s.withPending rest))

/-- Settles O27: each write keeps the other's part of the nine bits, so the order does not matter. -/
theorem mbc5TwoWritesSetTheNineBitBank : Obligations.Mbc5TwoWritesSetTheNineBitBank := by
  unfold Obligations.Mbc5TwoWritesSetTheNineBitBank
  intro s a b lo hi rest hfam halo hahi hblo hbhi hp
  have hlo := lo.isLt
  rcases hp with hp | hp
  · have h₁ := step_mbc5LowBank hfam halo hahi hp
    have h₂ := step_mbc5HighBank (d := hi) (rest := rest)
      (s := { s with romb := mbc5LowBank s.romb lo, pending := ⟨0x1#4, b, hi⟩ :: rest, output := .none })
      hfam hblo hbhi rfl
    refine ⟨_, (run_succ 1 h₁).trans (run_one h₂), ?_, rfl⟩
    simp only [mbc5HighBank_toNat, mbc5LowBank_toNat]
    omega
  · have h₁ := step_mbc5HighBank hfam hblo hbhi hp
    have h₂ := step_mbc5LowBank (d := lo) (rest := rest)
      (s := { s with romb := mbc5HighBank s.romb hi, pending := ⟨0x1#4, a, lo⟩ :: rest, output := .none })
      hfam halo hahi rfl
    refine ⟨_, (run_succ 1 h₁).trans (run_one h₂), ?_, rfl⟩
    simp only [mbc5HighBank_toNat, mbc5LowBank_toNat]
    omega

/-- Whether a WRITE in the RAM window stores: always on `MBC5`, with `RAM_EN` at 1 on `MBC1` and `MBC2`, and never on the
other families (R120, R121, R135, R153, R164). -/
theorem exec_decodeWrite_ramWindow (f : Family) (hlo : 0xA000 ≤ a.toNat) (hhi : a.toNat < 0xC000) :
    exec (decodeWrite f a d) s =
      if f = .mbc5 ∨ ((f = .mbc1 ∨ f = .mbc2) ∧ s.ramEn = 1#1) then storeXram a d s else nop s := by
  have hslice : sliceOf a = .s5 := sliceOf_s5 hlo hhi
  cases f with
  | none | unsupported => rfl
  | mbc1 =>
    simp only [decodeWrite, decodeWriteMbc1, hslice, reduceCtorEq, false_or, true_or, true_and]
    exact storeXramGated_eq
  | mbc2 =>
    simp only [decodeWrite, decodeWriteMbc2, hslice, reduceCtorEq, false_or, or_true, true_and]
    exact storeXramGated_eq
  | mbc5 =>
    simp only [decodeWrite, decodeWriteMbc5, hslice, true_or, if_true]
    rfl

/-- Settles O31: the READ answers the RAM byte at the written offset, which is the data when the store was let through
and the byte that was there when it was not. -/
theorem ramReadAfterWriteFollowsTheGate : Obligations.RamReadAfterWriteFollowsTheGate := by
  unfold Obligations.RamReadAfterWriteFollowsTheGate
  intro s a d e rest hlo hhi hp hf
  have hwrite := (step_write hp rfl).trans (exec_decodeWrite_ramWindow s.fam hlo hhi)
  have hread (u : State) (hu : step s = .next u) : ∃ t, core.run 2 s = .next t ∧ t.pending = rest ∧
      t.output = .byte (u.ramRead (u.ramb.toNat * 8192 + (a.toNat - 0xA000))) := by
    obtain ⟨hfam, -⟩ := theConfigurationNeverChanges s u hu
    have hstep := step_read (step_next_pending hp hu) rfl
    rw [readByte_xram (hfam ▸ hf) hlo hhi] at hstep
    exact ⟨_, (run_succ 1 hu).trans (run_one hstep), rfl, rfl⟩
  by_cases hgate : s.fam = .mbc5 ∨ ((s.fam = .mbc1 ∨ s.fam = .mbc2) ∧ s.ramEn = 1#1)
  · obtain ⟨t, ht, hrest, hout⟩ := hread _ ((hwrite.trans (if_pos hgate)).trans (storeXram_eq hlo hhi))
    refine ⟨t, ht, hrest, ?_⟩
    rw [hout, if_pos hgate]
    simp
  · obtain ⟨t, ht, hrest, hout⟩ := hread _ ((hwrite.trans (if_neg hgate)).trans (nop_eq _))
    refine ⟨t, ht, hrest, ?_⟩
    rw [hout, if_neg hgate]
    rfl

/-- While an override is pending, READs, WRITEs and further SAVE_MAPPINGs keep the saved bank (R170). -/
theorem step_keeps_saved {r : Request} {rest : List Request} {b : BitVec 9} (hp : s.pending = r :: rest)
    (hsaved : s.saved = some b) (hop : r.op ∈ [0x0#4, 0x1#4, 0x3#4]) :
    ∃ t, step s = .next t ∧ t.saved = some b ∧ t.pending = rest := by
  have hcode : r.op = 0x0#4 ∨ r.op = 0x1#4 ∨ r.op = 0x3#4 := by simpa using hop
  obtain ⟨t, ht⟩ : ∃ t, step s = .next t := by
    apply step_completes hp <;> rcases hcode with h | h | h <;> rw [h] <;> decide
  obtain ⟨hsave, -, hother⟩ := onlySaveAndRestoreMoveTheOverride s t r rest hp ht
  refine ⟨t, ht, ?_, step_next_pending hp ht⟩
  by_cases h3 : r.op = 0x3#4
  · rw [hsave h3, hsaved]
    rfl
  · have h4 : r.op ≠ 0x4#4 := by rcases hcode with h | h | h <;> rw [h] <;> decide
    rw [hother h3 h4, hsaved]

/-- A run of such transactions and a RESTORE_MAPPING after them maps the saved bank again. -/
theorem run_to_restore {q : Request} {b : BitVec 9} (hq : q.op = 0x4#4) (xs : List Request) (s : State)
    (hsaved : s.saved = some b) (hxs : ∀ x ∈ xs, x.op ∈ [0x0#4, 0x1#4, 0x3#4]) (hp : s.pending = xs ++ [q]) :
    ∃ t, core.run (xs.length + 1) s = .next t ∧ t.romb = b ∧ t.saved = none ∧ t.pending = [] := by
  induction xs generalizing s with
  | nil =>
    refine ⟨_, run_one (step_restoreMapping hp hq), ?_, rfl, rfl⟩
    simp [hsaved]
  | cons x xs ih =>
    obtain ⟨hx, hxs⟩ := List.forall_mem_cons.1 hxs
    obtain ⟨u, hu, husaved, hup⟩ := step_keeps_saved hp hsaved hx
    obtain ⟨t, ht, hrest⟩ := ih u husaved hxs hup
    exact ⟨t, (run_succ (xs.length + 1) hu).trans ht, hrest⟩

/-- Settles O42: the first SAVE_MAPPING captures the program's bank, and the run to the RESTORE_MAPPING keeps it. -/
theorem anOverrideAlwaysReturnsTheProgramsBank : Obligations.AnOverrideAlwaysReturnsTheProgramsBank := by
  unfold Obligations.AnOverrideAlwaysReturnsTheProgramsBank
  intro s xs a b d e hsaved hxs hp
  have hsave := step_saveMapping (rest := xs ++ [⟨0x4#4, b, e⟩]) hp rfl
  rw [hsaved, Option.getD_none] at hsave
  obtain ⟨t, ht, hrest⟩ := run_to_restore (q := ⟨0x4#4, b, e⟩) rfl xs
    { s with saved := some s.romb, pending := xs ++ [⟨0x4#4, b, e⟩], output := .none } rfl hxs rfl
  exact ⟨t, (run_succ (xs.length + 1) hsave).trans ht, hrest⟩

/-- Settles O44: RESET keeps `SAVED`, so the RESTORE_MAPPING finds the bank there. -/
theorem restoreAfterResetUndoesTheReset : Obligations.RestoreAfterResetUndoesTheReset := by
  unfold Obligations.RestoreAfterResetUndoesTheReset
  intro s b r q rest hsaved hr hq hp
  have hreset := step_reset hp hr
  have hrestore := step_restoreMapping (rest := rest) (r := q)
    (s := { s with romb := 1#9, pending := q :: rest, output := .none }) rfl hq
  refine ⟨⟨_, run_one hreset, rfl, hsaved⟩, (run_succ 1 hreset).trans ((run_one hrestore).trans ?_)⟩
  simp only [hsaved, Option.getD_some]

end Sys2Proof.Machine
end

section
/-! PROOFS. Translation from addresses to offsets (spec/20_memory.md section 3): the obligations O52 and O53. -/

namespace Sys2Proof.Machine

variable {a : Addr}

theorem romOffset0_of_window (ha : a.toNat < 0x4000) : romOffset0 a = a.toNat := by
  rw [romOffset0_eq, Nat.mod_eq_of_lt ha]

/-- Settles O52: the offsets are the concatenations, and a bank and an address within it stay below the bound. -/
theorem translatedOffsetsAreConcatenations : Obligations.TranslatedOffsetsAreConcatenations := by
  unfold Obligations.TranslatedOffsetsAreConcatenations
  constructor
  · intro romb a hlo hhi
    have hbank : romb.toNat < 512 := romb.isLt
    refine ⟨romOffsetX_eq_append romb hlo hhi, ?_⟩
    rw [romOffsetX_of_window romb hlo hhi]
    omega
  · intro ramb a hlo hhi
    refine ⟨?_, ramOffset_of_window ramb hlo hhi, ramOffset_lt ramb a⟩
    rw [bank_append13, ramOffset_eq]

/-- Settles O53: below 0x4000 the offset is in bank 0, and in the other windows the offset gives back the bank and the
place in it. -/
theorem windowsAliasOnlyThroughBankZero : Obligations.WindowsAliasOnlyThroughBankZero := by
  unfold Obligations.WindowsAliasOnlyThroughBankZero
  refine ⟨fun romb a b ha hblo hbhi => ?_, fun k l a b halo hahi hblo hbhi h => ?_,
    fun k l a b halo hahi hblo hbhi h => ?_⟩
  · rw [romOffset0_of_window ha, romOffsetX_of_window romb hblo hbhi, ← BitVec.toNat_inj, BitVec.toNat_ofNat]
    omega
  · rw [romOffsetX_of_window k halo hahi, romOffsetX_of_window l hblo hbhi] at h
    exact ⟨BitVec.eq_of_toNat_eq (by omega), BitVec.eq_of_toNat_eq (by omega)⟩
  · rw [ramOffset_of_window k halo hahi, ramOffset_of_window l hblo hbhi] at h
    exact ⟨BitVec.eq_of_toNat_eq (by omega), BitVec.eq_of_toNat_eq (by omega)⟩

end Sys2Proof.Machine
end

section
/-! PROOFS. The checksum verifier (spec/46_load_time.md section 2): what the sum makes of one byte, and the obligation
O58 from it. -/

namespace Sys2Proof.Machine

/-- The sum so far is added to that of the bytes to come. -/
theorem checksumFrom_add (field off : Nat) (acc x : BitVec 16) (bytes : List Byte) :
    checksumFrom field off (acc + x) bytes = checksumFrom field off acc bytes + x := by
  induction bytes generalizing off acc with
  | nil => rfl
  | cons c bytes ih =>
    unfold checksumFrom
    split
    · exact ih (off + 1) acc
    · rw [add_right_comm]
      exact ih (off + 1) (acc + c.setWidth 16)

/-- Changing one summed byte changes the sum by the difference of the two bytes. -/
theorem checksumFrom_set (field : Nat) (b : Byte) (bytes : List Byte) (k off : Nat) (acc : BitVec 16)
    (hk : k < bytes.length) (hfield : off + k ≠ field ∧ off + k ≠ field + 1) :
    checksumFrom field off acc (bytes.set k b) + (bytes.getD k 0#8).setWidth 16 =
      checksumFrom field off acc bytes + b.setWidth 16 := by
  induction bytes generalizing k off acc with
  | nil => cases hk
  | cons c bytes ih =>
    cases k with
    | zero =>
      have hsummed : ¬ (off = field ∨ off = field + 1) := not_or.2 hfield
      simp only [List.set_cons_zero, List.getD_cons_zero, checksumFrom, if_neg hsummed, checksumFrom_add]
      exact add_right_comm _ _ _
    | succ k =>
      have hk : k < bytes.length := Nat.lt_of_succ_lt_succ hk
      have hfield : off + 1 + k ≠ field ∧ off + 1 + k ≠ field + 1 := by omega
      rw [List.set_cons_succ, List.getD_cons_succ, checksumFrom, checksumFrom]
      split <;> exact ih k (off + 1) _ hk hfield

theorem imageByte_set_ne {image : List Byte} {k i : Nat} (b : Byte) (h : k ≠ i) :
    imageByte (image.set k b) i = imageByte image i := by
  simp only [imageByte, List.getD_eq_getElem?_getD, List.getElem?_set_ne h]

/-- Settles O58: the stored field is untouched, so both images valid would make the two bytes equal
(`checksumFrom_set`). -/
theorem changingOneByteBreaksTheChecksum : Obligations.ChangingOneByteBreaksTheChecksum := by
  unfold Obligations.ChangingOneByteBreaksTheChecksum
  intro p image k b hvalid hk hhigh hlow hne
  have hstored : storedChecksum p.offChecksum (image.set k b) = storedChecksum p.offChecksum image := by
    rw [storedChecksum, imageByte_set_ne b hhigh, imageByte_set_ne b hlow]
    rfl
  have hsum := checksumFrom_set p.offChecksum b image k 0 0#16 hk (by omega)
  by_contra hvalid'
  rw [Bool.not_eq_false] at hvalid'
  have hold : checksumFrom p.offChecksum 0 0#16 image = storedChecksum p.offChecksum image := eq_of_beq hvalid
  have hnew : checksumFrom p.offChecksum 0 0#16 (image.set k b) = storedChecksum p.offChecksum (image.set k b) :=
    eq_of_beq hvalid'
  rw [hold, hnew, hstored] at hsum
  have hbytes : (image.getD k 0#8).setWidth 16 = b.setWidth 16 := add_left_cancel hsum
  have hback : ((image.getD k 0#8).setWidth 16).setWidth 8 = (b.setWidth 16).setWidth 8 := congrArg _ hbytes
  rw [BitVec.setWidth_setWidth_of_le _ (by decide), BitVec.setWidth_setWidth_of_le _ (by decide), BitVec.setWidth_eq,
    BitVec.setWidth_eq] at hback
  exact hne hback

end Sys2Proof.Machine
end

section
/-! PROOFS. LOAD and the power cycle (spec/46_load_time.md, spec/70_reset_and_hazards.md section 1): the obligations O45,
O54, O56, O57 and O59. -/

namespace Sys2Proof.Machine

variable {p : LoadParams} {image : List Byte} {store : Store} {battery : Bool} {n : Nat} {code : Byte}

/-- Settles O45: the fields of the power-on state are written out in its definition. -/
theorem powerOnRegistersAreTheSpecs : Obligations.PowerOnRegistersAreTheSpecs := by
  unfold Obligations.PowerOnRegistersAreTheSpecs
  constructor
  · intros
    exact ⟨rfl, rfl, rfl, rfl, rfl, Nat.one_mul 16384, Nat.zero_mul 8192, rfl, rfl, rfl, rfl, rfl, rfl⟩
  · exact ⟨.none, 2, false, 1, rfl⟩

theorem bankCountOf_small (h : code.toNat < 8) : bankCountOf p code = some (2 ^ (code.toNat + 1)) := if_pos h

/-- From code 8 up the three oversize codes alone give a bank count (R191). -/
theorem bankCountOf_large (h : 8 ≤ code.toNat) :
    bankCountOf p code = if code = p.oversize72 then some 72 else if code = p.oversize80 then some 80
      else if code = p.oversize96 then some 96 else none := if_neg (Nat.not_lt.mpr h)

/-- Settles O54: the small codes are powers of two, and the oversize codes are large and distinct. -/
theorem sizeCodesGiveTheTablesBankCounts : Obligations.SizeCodesGiveTheTablesBankCounts := by
  unfold Obligations.SizeCodesGiveTheTablesBankCounts
  intro p hlegal
  obtain ⟨-, -, -, h72, h80, h96, h72_80, h72_96, h80_96⟩ := hlegal
  refine ⟨⟨?_, ?_, ?_, ?_, ?_, ?_, ?_, ?_⟩, ?_, ?_, ?_, fun c hc hcodes => ?_⟩
  iterate 8 exact bankCountOf_small (by decide)
  · rw [bankCountOf_large h72, if_pos rfl]
  · rw [bankCountOf_large h80, if_neg h72_80.symm, if_pos rfl]
  · rw [bankCountOf_large h96, if_neg h72_96.symm, if_neg h80_96.symm, if_pos rfl]
  · simp only [List.mem_cons, List.not_mem_nil, or_false, not_or] at hcodes
    obtain ⟨hc72, hc80, hc96⟩ := hcodes
    rw [bankCountOf_large hc, if_neg hc72, if_neg hc80, if_neg hc96]

/-- Every count of the size table is legal (R8). -/
theorem bankCountOf_mem (h : bankCountOf p code = some n) : n ∈ [2, 4, 8, 16, 32, 64, 128, 256, 72, 80, 96] := by
  have hpow : ∀ k < 8, 2 ^ (k + 1) ∈ [2, 4, 8, 16, 32, 64, 128, 256, 72, 80, 96] := by decide
  rcases Nat.lt_or_ge code.toNat 8 with hlt | hge
  · rw [bankCountOf_small hlt] at h
    cases h
    exact hpow code.toNat hlt
  · rw [bankCountOf_large hge] at h
    split_ifs at h <;> cases h <;> decide

theorem ramBankCountOf_cases (code : Byte) : ramBankCountOf code = 1 ∨ ramBankCountOf code = 4 := by
  unfold ramBankCountOf
  split <;> simp

/-- The persisted range is inside the RAM array (R197, R11). -/
theorem persistedLength_le (f : Family) (code : Byte) : persistedLength f (ramBankCountOf code) ≤ ramCap := by
  rcases ramBankCountOf_cases code with h | h <;> rw [h] <;> cases f <;> decide

theorem checksumMismatch_mem_loadReports :
    .checksumMismatch ∈ loadReports p battery n image store ↔ checksumValid p image = false := by
  unfold loadReports
  cases checksumValid p image <;> cases persistLoadFails battery n store <;> simp

theorem persistLoadFailed_mem_loadReports :
    .persistLoadFailed ∈ loadReports p battery n image store ↔ persistLoadFails battery n store = true := by
  unfold loadReports
  cases checksumValid p image <;> cases persistLoadFails battery n store <;> simp

/-- Below the persisted length a battery-backed block has the store's bytes where there are enough of them (R197). -/
theorem ramInit_read_of_battery {attempt i : Nat} {bytes : List Byte} (hbattery : battery = true)
    (hstore : storeBytes store = some bytes) (hbytes : n ≤ bytes.length) (hi : i < n) :
    Memory.read (ramInit battery n attempt store) i = imageByte bytes i :=
  hbattery ▸ ramInit_read_store n attempt i store bytes hstore hbytes hi

/-- Settles O56: the block LOAD builds on an image of the right length, with RAM by the laws of `ramInit` and the reports
by those of `loadReports`. -/
theorem loadGivesThePowerOnState : Obligations.LoadGivesThePowerOnState := by
  unfold Obligations.LoadGivesThePowerOnState
  intro p attempt n image store hn hlen hcode
  refine ⟨_, _, load_eq_loadBlock attempt store hn hlen hcode, rfl, read_ofBytes_image image,
    ramInit_read_beyond _ _ attempt store, fun i h => ?_, fun bytes hbattery hstore hbytes i hi => ?_,
    checksumMismatch_mem_loadReports, persistLoadFailed_mem_loadReports.trans (persistLoadFails_iff _ _ store)⟩
  · exact congrArg (Memory.read · i) (ramInit_eq_nil _ _ attempt store h)
  · have hread : storeBytes store = some bytes := by rcases hstore with rfl | rfl <;> rfl
    exact ramInit_read_of_battery hbattery hread hbytes hi

/-- The registers of power-on meet R33 on every family. -/
theorem registersInv_powerOn (f : Family) (bankCount : Nat) (battery : Bool) (ramBankCount : Nat) (rom ram : Memory) :
    RegistersInv (State.powerOn f bankCount battery ramBankCount rom ram) := by
  refine ⟨rombOk_one f, rfl, ?_⟩
  change latchesOk f 0#3 0#1 0#1 = true
  cases f <;> decide

/-- Settles O57: power-on registers, a bank count of the size table, and arrays laid out inside their lengths. -/
theorem loadedBlocksMeetTheInvariant : Obligations.LoadedBlocksMeetTheInvariant := by
  unfold Obligations.LoadedBlocksMeetTheInvariant
  intro p attempt image store s reports h
  obtain ⟨-, n, hcode, hlen, hblock⟩ := load_loaded h
  cases hblock
  obtain ⟨hramwf, hramin⟩ := ramInit_form (batteryOfType (cartTypeOf p (imageByte image p.offType)))
    (persistedLength (familyOfType (cartTypeOf p (imageByte image p.offType)))
      (ramBankCountOf (imageByte image p.offRamSize))) attempt store
  refine ⟨registersInv_powerOn _ _ _ _ _ _, Memory.wf_ofBytes image 0, fun c hc => ?_, hramwf,
    fun c hc => (hramin c hc).trans_le (persistedLength_le _ _), bankCountOf_mem hcode, ramBankCountOf_cases _⟩
  obtain ⟨-, hlt, -⟩ := Memory.mem_ofBytes image 0 c hc
  rwa [Nat.zero_add, hlen] at hlt

/-- Two blocks loaded from one image have one configuration, whatever the stores. -/
theorem load_configuration {m m' : Nat} {store' : Store} {s s' : State} {reports reports' : List Report}
    (h : load p m image store = .loaded s reports) (h' : load p m' image store' = .loaded s' reports') :
    s'.fam = s.fam ∧ s'.battery = s.battery ∧ s'.ramBankCount = s.ramBankCount := by
  obtain ⟨-, n, -, -, hblock⟩ := load_loaded h
  obtain ⟨-, n', -, -, hblock'⟩ := load_loaded h'
  cases hblock
  cases hblock'
  exact ⟨rfl, rfl, rfl⟩

/-- Settles O59: the store left behind holds exactly the persisted range, so the load of O56 reads it back whole. -/
theorem persistedRamSurvivesAPowerCycle : Obligations.PersistedRamSurvivesAPowerCycle := by
  unfold Obligations.PersistedRamSurvivesAPowerCycle
  intro p m n k image store s₀ s reports h hbattery₀ hfam hbattery hcount
  obtain ⟨hlong, banks, hcode, hlen, -⟩ := load_loaded h
  have hstore : storeAfter k store (detach s true) =
      .present (s.ram.firstBytes (persistedLength s.fam s.ramBankCount)) :=
    storeAfter_detach k store s (hbattery.trans hbattery₀)
  obtain ⟨t, reports', hload, hpowerOn, hrom, hbeyond, -, hpersisted, -, hfails⟩ :=
    loadGivesThePowerOnState p n banks image (storeAfter k store (detach s true)) (by omega) hlen hcode
  obtain ⟨hfam', hbattery', hcount'⟩ := load_configuration h hload
  have hlength : persistedLength t.fam t.ramBankCount = persistedLength s.fam s.ramBankCount := by
    rw [hfam', hcount', hfam, hcount]
  rw [hlength] at hbeyond hpersisted hfails
  refine ⟨t, reports', hload, fun i => ?_, hrom, ?_, ?_, ?_, ?_, ?_, fun hfailed => ?_⟩
  · split
    · next hi =>
      rw [hpersisted _ (hbattery'.trans hbattery₀) (.inl hstore) (firstBytes_length _ _).ge i hi,
        imageByte_firstBytes _ _ _ hi]
      rfl
    · next hi => exact hbeyond i (Nat.le_of_not_lt hi)
  iterate 5
    · rw [hpowerOn]
      rfl
  · obtain ⟨-, hmissing | ⟨bytes, hunwritable⟩ | ⟨bytes, hpresent, hshort⟩⟩ := hfails.1 hfailed
    · rw [hstore] at hmissing
      cases hmissing
    · rw [hstore] at hunwritable
      cases hunwritable
    · rw [hstore] at hpresent
      cases hpresent
      exact absurd hshort (firstBytes_length _ _).not_lt

end Sys2Proof.Machine
end
